-- ==== Sys2Proof/Word.lean ====
section
/-! DEFINITION. The byte, the one word of the block (00_scope.md R8; 20_memory.md R25). -/

namespace Sys2Proof

/-- A byte: an unsigned integer 0 to 255, bit 7 the most significant (R8). -/
abbrev Byte := BitVec 8

end Sys2Proof
end

