-- ==== Sys2Proof/Syntax.lean ====
section
/-! DEFINITION. Operations and operation requests (30_encoding.md R42, R43; 10_state.md R21). -/

namespace Sys2Proof

/-- The two memories of the block: the packet buffer PB and the sector buffer SB (R19, R20). -/
inductive MemId where
  | pb
  | sb
deriving DecidableEq, Repr

/-- One entry of the operand `ranges`: a memory and its first and last offset, inclusive (R21).
Empty when `last < first` (R68). -/
structure ByteRange where
  mem   : MemId
  first : Nat
  last  : Nat
deriving DecidableEq, Repr

/-- The eleven operations of R42 with their operands (R43). -/
inductive Instr where
  /-- 0x0, format R. -/
  | csumCompute (ranges : List ByteRange)
  /-- 0x1, format C. -/
  | csumEncode (c : Byte)
  /-- 0x2, format V: `w1` is the pair byte at the lower offset (R21). -/
  | csumVerify (c w1 w2 : Byte)
  /-- 0x3, format N. -/
  | pktLength
  /-- 0x4, format S. -/
  | buildStatus (src : Byte)
  /-- 0x5, format S. -/
  | buildStatusDib (src : Byte)
  /-- 0x6, format SS. -/
  | buildWriteAck (src stat : Byte)
  /-- 0x7, format SS. -/
  | buildInitAck (src stat : Byte)
  /-- 0x8, format S. -/
  | sectorEncode (src : Byte)
  /-- 0x9, format N. -/
  | sectorDecode
  /-- 0xA, format N. -/
  | cmdVerify
deriving DecidableEq, Repr

/-- An operation request: the select code and every operand input of R21, side by side, not packed
into one word (R43). An input that the operation does not use is ignored (R44). -/
structure Request where
  op     : BitVec 4
  ranges : List ByteRange
  c      : Byte
  w1     : Byte
  w2     : Byte
  src    : Byte
  stat   : Byte
deriving DecidableEq, Repr

/-- What the requester does between and for operations: ask for an operation, or write bytes into a
memory from an offset (R14; the directives `.pb` and `.sb` of R45). -/
inductive Action where
  | request (r : Request)
  | write (mem : MemId) (offset : Nat) (bytes : List Byte)
deriving DecidableEq, Repr

end Sys2Proof
end

