-- ==== Sys2Proof/WellFormed.lean ====
section
/-! DEFINITION. Well-formedness: legal select codes (30_encoding.md R44), and the operand part of
the caller contract (70_reset_and_hazards.md R111, R113). Neither is checked by a meaning: an
operation whose operands breach the contract runs as its rule says (R75, R113; log 13). -/

namespace Sys2Proof

/-- Select codes 0x0 to 0xA name an operation, 0xB to 0xF none (R42, R44). -/
def Request.legalSelect (r : Request) : Bool := decide (r.op.toNat ≤ 10)

/-- R113: a source id or status code is valid when its bit 7 is 1. -/
def validId (b : Byte) : Bool := b.getLsbD 7

/-- R111, last row: a range lies inside its memory, or is empty (R29, R68). -/
def ByteRange.inside (cap : Nat) (r : ByteRange) : Bool :=
  decide (r.last < r.first) || decide (r.last < match r.mem with | .pb => cap | .sb => 512)

/-- The operand part of the caller contract, for an instance of capacity `cap` (R111, R113). -/
def Instr.wellFormed (cap : Nat) : Instr → Bool
  | .csumCompute ranges      => ranges.all (ByteRange.inside cap)
  | .csumEncode _            => true
  | .csumVerify _ _ _        => true
  | .pktLength               => true
  | .buildStatus src         => validId src
  | .buildStatusDib src      => validId src
  | .buildWriteAck src stat  => validId src && validId stat
  | .buildInitAck src stat   => validId src && validId stat
  | .sectorEncode src        => validId src
  | .sectorDecode            => true
  | .cmdVerify               => true

end Sys2Proof
end

