-- ==== Sys2Proof/Decode.lean ====
section
/-! DEFINITION. Decoding and encoding of operation requests (30_encoding.md R42 to R44). -/

namespace Sys2Proof

/-- Why a request decodes to no operation. -/
inductive DecodeError where
  /-- The select code is 0xB to 0xF (R44). -/
  | illegalOp (op : BitVec 4)
deriving DecidableEq, Repr

/-- The operation a request asks for; operand inputs the operation does not use are ignored
(R42, R43, R44). -/
def decode (r : Request) : Except DecodeError Instr :=
  match r.op.toNat with
  | 0  => .ok (.csumCompute r.ranges)
  | 1  => .ok (.csumEncode r.c)
  | 2  => .ok (.csumVerify r.c r.w1 r.w2)
  | 3  => .ok .pktLength
  | 4  => .ok (.buildStatus r.src)
  | 5  => .ok (.buildStatusDib r.src)
  | 6  => .ok (.buildWriteAck r.src r.stat)
  | 7  => .ok (.buildInitAck r.src r.stat)
  | 8  => .ok (.sectorEncode r.src)
  | 9  => .ok .sectorDecode
  | 10 => .ok .cmdVerify
  | _  => .error (.illegalOp r.op)

/-- The request with select code `op` and every operand input at zero, or the empty list. -/
def Request.bare (op : BitVec 4) : Request :=
  { op := op, ranges := [], c := 0, w1 := 0, w2 := 0, src := 0, stat := 0 }

/-- The request that asks for an operation; inputs the operation does not use are driven with zero
(DESIGN CHOICE, log 15: R44 says they are ignored). -/
def encode : Instr → Request
  | .csumCompute ranges     => { Request.bare 0x0#4 with ranges := ranges }
  | .csumEncode c           => { Request.bare 0x1#4 with c := c }
  | .csumVerify c w1 w2     => { Request.bare 0x2#4 with c := c, w1 := w1, w2 := w2 }
  | .pktLength              => Request.bare 0x3#4
  | .buildStatus src        => { Request.bare 0x4#4 with src := src }
  | .buildStatusDib src     => { Request.bare 0x5#4 with src := src }
  | .buildWriteAck src stat => { Request.bare 0x6#4 with src := src, stat := stat }
  | .buildInitAck src stat  => { Request.bare 0x7#4 with src := src, stat := stat }
  | .sectorEncode src       => { Request.bare 0x8#4 with src := src }
  | .sectorDecode           => Request.bare 0x9#4
  | .cmdVerify              => Request.bare 0xA#4

/-- The request for a word numbered as the opcode table numbers it: the select code is bits 3 to 0,
and the table gives the operand inputs no bits, so each of them is zero, and `ranges` is empty
(DESIGN CHOICE, log 15: R43 presents the operands beside the select code and packs no word). -/
def Request.ofTableWord (nbits w : Nat) : Request :=
  Request.bare (BitVec.ofNat 4 (w % 2 ^ nbits))

/-- The operation the decoder reads from a table word. -/
def decodeTableWord (nbits w : Nat) : Option Instr :=
  match decode (Request.ofTableWord nbits w) with
  | .ok i    => some i
  | .error _ => none

end Sys2Proof
end

