-- ==== Sys2Proof/Machine/Constants.lean ====
section
/-! DEFINITION. The hardwired constants of 00_scope.md R7, each in this one place (D31; U7). The
literals are the spec's transcription and were never checked against the bus (log 11). -/

namespace Sys2Proof.Machine

/-- PREAMBLE, offsets 0 to 5 (R7, R46). -/
def preamble : List Byte := [0xFF#8, 0x3F#8, 0xCF#8, 0xF3#8, 0xFC#8, 0xFF#8]

/-- START, offset 6 (R7, R46). -/
def startMarker : Byte := 0xC3#8

/-- DEST_HOST, offset 7 (R7, R46). -/
def destHost : Byte := 0x80#8

/-- AUX, offset 10 (R7, R46). -/
def auxCode : Byte := 0x80#8

/-- END (R7, R54). -/
def endMarker : Byte := 0xC8#8

/-- TERM, the sentinel (R7, R54). -/
def terminator : Byte := 0x00#8

/-- TYPE_INIT_ACK (R7, R49). -/
def typeInitAck : Byte := 0x80#8

/-- TYPE_STATUS, of both status replies and the write-ack (R7, R49). -/
def typeStatus : Byte := 0x81#8

/-- TYPE_DATA, of the sector-data packet (R7, R49). -/
def typeData : Byte := 0x82#8

/-- STAT_FIXED, the status byte of the kinds whose status is no operand (R7, D11). -/
def statFixed : Byte := 0x80#8

/-- CSUM_MASK (R7, R69). -/
def csumMask : Byte := 0xAA#8

/-- CSUM_EXTRACT (R7, R70). -/
def csumExtract : Byte := 0x55#8

/-- RESULT_OK (R7, R88). -/
def resultOk : Byte := 0x00#8

/-- RESULT_BUS_ERROR (R7, R88, R95). -/
def resultBusError : Byte := 0x06#8

/-- GENERAL_STATUS (R7, R77). -/
def generalStatus : Byte := 0xF8#8

/-- BLOCK_COUNT 0x00FFFF as original bytes, low byte first (R7, R27, R77). -/
def blockCount : List Byte := [0xFF#8, 0xFF#8, 0x00#8]

/-- STATUS_WIRE, the five payload wire bytes of the status reply (R7, R56, R77). -/
def statusWire : List Byte := [0xF0#8, 0xF8#8, 0xFF#8, 0xFF#8, 0x80#8]

/-- DIB_TEMPLATE, the 29 payload wire bytes of the status+device-info reply (R78). -/
def dibTemplate : List Byte :=
  [0xF0#8, 0xF8#8, 0xFF#8, 0xFF#8, 0x80#8, 0x8D#8, 0x53#8, 0x6D#8] ++
  [0x80#8, 0x61#8, 0x72#8, 0x74#8, 0x70#8, 0x6F#8, 0x72#8, 0x74#8] ++
  [0x80#8, 0x20#8, 0x53#8, 0x44#8, 0x20#8, 0x20#8, 0x20#8, 0x20#8] ++
  [0x80#8, 0x82#8, 0x80#8, 0x81#8, 0x90#8]

/-- SECTOR_SIZE (R7, R20). -/
def sectorSize : Nat := 512

/-- GROUPS, the groups of seven of a sector-data packet (R7, R83). -/
def sectorGroupCount : Nat := 73

end Sys2Proof.Machine
end

