-- ==== Sys2Proof/Config.lean ====
section
/-! DEFINITION. What the instance fixes and the spec leaves open: the capacity CAP, and the free
values. None of the opaque constants has a body, so nothing can be proved of its value. -/

namespace Sys2Proof

/-- By how much the capacity of this instance exceeds 604; unknown (92_eei_decisions.md D5). -/
opaque Config.capacityAboveLeast : Nat

/-- CAP of this instance: any natural number of at least 604 (00_scope.md R7, D5; log 2). -/
def Config.cap : Nat := Config.capacityAboveLeast + 604

/-- The value a byte of PB or SB holds from power-up until it is first written: unspecified, each
byte independently (R24, R109, R110; log 3). -/
opaque Config.powerOnByte (mem : MemId) (offset : Nat) : Byte

/-- The byte at an offset of SB after the checksum mismatch number `count` of SECTOR_DECODE: any
value (R88, U2; log 4). It may depend on what PB and SB held (R22), so it is applied to both. -/
opaque Config.mismatchByte (count : Nat) (pb sb : List Host.Cell) (offset : Nat) : Byte

end Sys2Proof
end

