-- ==== Sys2Proof/Machine/State.lean ====
section
/-! DEFINITION. The state of the block and of its requester, the reasons a step can stop, and the
state after reset (10_state.md; 70_reset_and_hazards.md R109). -/

namespace Sys2Proof.Machine

/-- A byte memory: the bytes written since reset, as (offset, byte) pairs with offsets strictly
rising. An offset that is not listed holds no byte that anybody wrote (log 3). -/
abbrev Memory := List Host.Cell

/-- The canonical form of a memory: the listed offsets rise strictly. Every listed entry is a written
byte, and an unlisted offset holds none, so no entry equals what an unlisted offset holds. -/
abbrev Memory.wf (m : Memory) : Prop := (m.map Prod.fst).Pairwise (· < ·)

/-- Every listed offset lies below `size`. -/
abbrev Memory.within (size : Nat) (m : Memory) : Prop := ∀ c ∈ m, c.1 < size

/-- The values of the result output FAULT (60_exceptions.md R95). A fault of the spec is a value of
this output, after which the block takes the next request (R105). -/
inductive FaultCode where
  /-- Code 0: the operation completed. -/
  | noFault
  /-- Code 1: the select code names no operation (R96). -/
  | illegalOp
  /-- Code 2: an offset at or above a memory's size would be touched (R97). -/
  | capacityFault
  /-- Code 3: PB holds no zero byte (R98). -/
  | noTerminator
  /-- Code 4: the terminator of a command packet stands below offset 3 (R99). -/
  | shortPacket
deriving DecidableEq, Repr

/-- The result outputs (10_state.md R17). An output that the last operation did not deliver is
absent (93_implementation_defined.md U10); after reset all are (U9; log 5). -/
structure Outputs where
  chk     : Option Byte
  w1      : Option Byte
  w2      : Option Byte
  isMatch : Option Bool
  len     : Option Nat
  result  : Option Byte
  fault   : Option FaultCode
deriving DecidableEq, Repr

/-- No output is present. -/
def Outputs.absent : Outputs :=
  { chk := none, w1 := none, w2 := none, isMatch := none, len := none, result := none, fault := none }

/-- The state. `pb`, `sb` and `out` are the spec's; `cap`, `inbox` and `mismatchCount` are the
model's own (logs 1, 2, 4). -/
structure State where
  /-- CAP, the parameter of this instance (R7, R23); no step changes it. -/
  cap           : Nat
  /-- PB, the packet buffer, offsets 0 to CAP-1 (R19). -/
  pb            : Memory
  /-- SB, the sector buffer, offsets 0 to 511 (R20). -/
  sb            : Memory
  /-- The result outputs (R17). -/
  out           : Outputs
  /-- What the requester does next, oldest first (R14, R21). -/
  inbox         : List Action
  /-- How many SECTOR_DECODE operations have ended in a checksum mismatch (log 4). -/
  mismatchCount : Nat
deriving DecidableEq, Repr

/-- The reasons a step stops with a fault. The faults of the spec are none of these: they are values
of the output FAULT in a next state (log 6). -/
inductive Fault where
  /-- Raised by `step` when the requester is told to write at an offset that its memory does not
  have (R19, R20). Safe: the hardware has no such byte, and nothing is proved to follow (log 8). -/
  | requesterOutOfRange
deriving DecidableEq, Repr

/-- The reasons a step is refused. -/
inductive Refusal where
  /-- Raised by `exec` for an operation that has no meaning in the model; no arm raises it. Safe. -/
  | notModelled (mnemonic : String)
deriving DecidableEq, Repr

/-- The machine right after reset (R24, R109): nothing written in PB or SB, no output delivered, no
request waiting, and the capacity of this instance. -/
def State.reset : State :=
  { cap := Config.cap, pb := [], sb := [], out := Outputs.absent, inbox := [], mismatchCount := 0 }

end Sys2Proof.Machine
end

