-- ==== Sys2Proof/Machine/Operands.lean ====
section
/-! DEFINITION. The pure functions of R11: reading the bytes of a range, the checksum and its wire
pair, and the packing of operands into wire bytes and back. -/

namespace Sys2Proof.Machine

/-- `XOR(b0, ..., bk)`, `0x00` for no bytes (R9, R67). -/
def xorBytes (bs : List Byte) : Byte := bs.foldl (· ^^^ ·) 0x00#8

/-- The bytes `M[a..b]`, none when `b < a` (R10). -/
def bytesFrom (read : Nat → Byte) (a b : Nat) : List Byte :=
  (List.range (b + 1 - a)).map fun k => read (a + k)

/-- `xor_range(M, a, b)` (R67). -/
def xorRange (read : Nat → Byte) (a b : Nat) : Byte := xorBytes (bytesFrom read a b)

/-- `csum_pair(c)`: the byte at the lower offset first (R69). -/
def csumPair (c : Byte) : Byte × Byte := (c ||| csumMask, (c >>> 1) ||| csumMask)

/-- `csum_unpair(w1, w2)`; the shift loses nothing, since `w2 & 0x55` is at most `0x55` (R70). -/
def csumUnpair (w1 w2 : Byte) : Byte := (w1 &&& csumExtract) ||| ((w2 &&& csumExtract) <<< 1)

/-- `count_field(n)`, for n at most 127 (R48). -/
def countField (n : Nat) : Byte := 0x80#8 ||| BitVec.ofNat 8 n

/-- `header(src, type, stat, odd, grp)`, the bytes at offsets 0 to 13 (R46, R47). -/
def header (src type stat : Byte) (odd grp : Nat) : List Byte :=
  preamble ++ [startMarker, destHost, src, type, auxCode, stat, countField odd, countField grp]

/-- The XOR of the header bytes at offsets 7 to 13 of a header (R64, R65). -/
def headerXor (h : List Byte) : Byte := xorBytes (h.drop 7)

/-- The trailer: the checksum pair, the end marker and the terminator (R54). -/
def trailer (c : Byte) : List Byte := [(csumPair c).1, (csumPair c).2, endMarker, terminator]

/-- Bit 7 of each byte in turn, at bit `place` downward. -/
def carrierBits : List Byte → Nat → Byte
  | [], _ => 0x00#8
  | b :: bs, place => (((b >>> 7) &&& 0x01#8) <<< place) ||| carrierBits bs (place - 1)

/-- `carrier(b0, ..., bk)` for one to seven bytes: bit 7 is 1, bit 6-j is bit 7 of byte j, the bits
below are 0 (R51). -/
def carrier (bs : List Byte) : Byte := 0x80#8 ||| carrierBits bs 6

/-- A section of the payload: its carrier, then each byte with bit 7 forced to 1; no byte at all for
an empty section (R52). -/
def packSection : List Byte → List Byte
  | [] => []
  | b :: bs => carrier (b :: bs) :: (b :: bs).map (· ||| 0x80#8)

/-- The payload wire bytes: the odd section first, then the groups in ascending order (R52). -/
def packPayload (odd : List Byte) (groups : List (List Byte)) : List Byte :=
  packSection odd ++ groups.flatMap packSection

/-- `unpack(m, i, d)`: bit 7 is bit 6-i of the carrier m, bits 6 to 0 are those of d. The mask after
the shift makes the shift's width immaterial (R9, R53). -/
def unpack (m : Byte) (i : Nat) (d : Byte) : Byte := ((m <<< (i + 1)) &&& 0x80#8) ||| (d &&& 0x7F#8)

/-- The `n` original bytes of a section whose carrier stands at `base` (R52, R53). -/
def unpackSection (read : Nat → Byte) (base n : Nat) : List Byte :=
  (List.range n).map fun i => unpack (read base) i (read (base + 1 + i))

/-- The original bytes of a payload at offset 14 with `odd` odd bytes (at least one) and `grp` groups
of seven: carrier of the odd section at 14, the groups from 15 + odd on (R52, R55, R59). -/
def unpackPayload (read : Nat → Byte) (odd grp : Nat) : List Byte :=
  unpackSection read 14 odd ++
    (List.range grp).flatMap fun g => unpackSection read (15 + odd + 8 * g) 7

/-- `first_zero(CAP, PB)`: the least offset below `cap` whose byte is `0x00` (R73). -/
def firstZero (cap : Nat) (read : Nat → Byte) : Option Nat :=
  (List.range cap).find? fun k => read k == terminator

/-- The sector's groups: byte i of group g is SB[1 + 7g + i] (R83). -/
def sectorGroups (read : Nat → Byte) : List (List Byte) :=
  (List.range sectorGroupCount).map fun g => (List.range 7).map fun i => read (1 + 7 * g + i)

end Sys2Proof.Machine
end

