-- ==== Sys2Proof/Machine/Flags.lean ====
section
/-! DEFINITION. The block has no flags (10_state.md R17); what stands in their place are the verdicts
an operation delivers: MATCH, RESULT and the code of FAULT. -/

namespace Sys2Proof.Machine

/-- MATCH: 1 exactly when the computed and the transmitted checksum are equal (R72, R91, R92). -/
def matchFlag (computed transmitted : Byte) : Bool := computed == transmitted

/-- RESULT: 0 on a match, 6 otherwise (R88, R93, R95). -/
def resultCode (agree : Bool) : Byte := if agree then resultOk else resultBusError

/-- The number of a FAULT value (R95). -/
def faultNumber : FaultCode → Nat
  | .noFault       => 0
  | .illegalOp     => 1
  | .capacityFault => 2
  | .noTerminator  => 3
  | .shortPacket   => 4

end Sys2Proof.Machine
end

