-- ==== Sys2Proof/Machine/Ops.lean ====
section
/-! DEFINITION. The named operations over memory, result outputs and requests. Raising a fault of the
spec is `State.raise`, one operation for all of them (60_exceptions.md R94, R104). -/

namespace Sys2Proof.Machine

/-- The byte written at an offset, none if nothing wrote there since reset. -/
def Memory.peek : Memory → Nat → Option Byte
  | [], _ => none
  | cell :: rest, k => if cell.1 = k then some cell.2 else Memory.peek rest k

/-- Bytes at consecutive offsets from `a`. -/
def Memory.cellsAt (a : Nat) : List Byte → Memory
  | [] => []
  | b :: bs => (a, b) :: Memory.cellsAt (a + 1) bs

/-- `M[a..] <- bs`: the bytes at consecutive offsets from `a`; no other byte changes (R10, R30). -/
def Memory.store (m : Memory) (a : Nat) (bs : List Byte) : Memory :=
  m.filter (fun cell => decide (cell.1 < a)) ++
    (Memory.cellsAt a bs ++ m.filter (fun cell => decide (a + bs.length ≤ cell.1)))

/-- The contents of a memory. -/
def State.memory (s : State) : MemId → Memory
  | .pb => s.pb
  | .sb => s.sb

/-- How many bytes a memory has: CAP and 512 (R19, R20). -/
def State.size (s : State) : MemId → Nat
  | .pb => s.cap
  | .sb => sectorSize

/-- The byte at an offset of a memory: the last one written, else the unspecified power-on value
(R10, R24; log 3). Reading changes nothing (R30). -/
def State.byteAt (s : State) (m : MemId) (k : Nat) : Byte :=
  (Memory.peek (s.memory m) k).getD (Config.powerOnByte m k)

/-- Writes bytes into a memory from an offset. -/
def State.writeBytes (s : State) (m : MemId) (a : Nat) (bs : List Byte) : State :=
  match m with
  | .pb => { s with pb := Memory.store s.pb a bs }
  | .sb => { s with sb := Memory.store s.sb a bs }

/-- The outputs of an operation that completed and delivers no other output (R17). -/
def Outputs.completed : Outputs := { Outputs.absent with fault := some .noFault }

/-- The outputs of an operation that raised a fault: the fault's name alone (R94, R95). -/
def Outputs.faulted (f : FaultCode) : Outputs := { Outputs.absent with fault := some f }

/-- `return CHK = v` (R68). -/
def Outputs.ofChk (v : Byte) : Outputs := { Outputs.completed with chk := some v }

/-- `return W1, W2` (R71). -/
def Outputs.ofPair (w1 w2 : Byte) : Outputs := { Outputs.completed with w1 := some w1, w2 := some w2 }

/-- `return MATCH = b` (R72, R92). -/
def Outputs.ofMatch (b : Bool) : Outputs := { Outputs.completed with isMatch := some b }

/-- `return LEN = n` (R74). -/
def Outputs.ofLen (n : Nat) : Outputs := { Outputs.completed with len := some n }

/-- `return RESULT = r` (R88). -/
def Outputs.ofResult (r : Byte) : Outputs := { Outputs.completed with result := some r }

/-- `return ...`: the result outputs of this operation take the place of the last one's (R10, R22). -/
def State.deliver (s : State) (o : Outputs) : State := { s with out := o }

/-- `raise <Fault>`: the operation ends with the name on FAULT, no other output, and PB and SB as
they were (R10, R94, R104). -/
def State.raise (s : State) (f : FaultCode) : State := { s with out := Outputs.faulted f }

/-- `if CAP < need: raise CapacityFault`, and `done` otherwise (R29, R97). -/
def State.ifCapacity (s : State) (need : Nat) (done : State) : State :=
  if s.cap < need then s.raise .capacityFault else done

/-- The end of every builder and of SECTOR_ENCODE: the packet written from PB[0] upward, and no
output but FAULT (R17, R38, R75). -/
def State.emitPacket (s : State) (packet : List Byte) : State :=
  (s.writeBytes .pb 0 packet).deliver Outputs.completed

/-- A range of CSUM_COMPUTE raises no CapacityFault: it is empty, or ends inside its memory
(R29, R68). -/
def State.rangeInside (s : State) (r : ByteRange) : Bool :=
  decide (r.last < r.first) || decide (r.last < s.size r.mem)

/-- The XOR of all bytes of all ranges, in list order (R68). -/
def State.xorRanges (s : State) (ranges : List ByteRange) : Byte :=
  ranges.foldl (fun acc r => acc ^^^ xorRange (s.byteAt r.mem) r.first r.last) 0x00#8

/-- SB after a checksum mismatch: 512 bytes of any value (R88, U2; log 4). -/
def State.mismatchedSector (s : State) : List Byte :=
  (List.range sectorSize).map (Config.mismatchByte s.mismatchCount s.pb s.sb)

/-- One more SECTOR_DECODE has ended in a mismatch, so the next one's free values are fresh (log 4). -/
def State.countMismatch (s : State) : State := { s with mismatchCount := s.mismatchCount + 1 }

/-- A request that decodes to no operation: IllegalOp, and nothing else happens (R44, R96). -/
def State.rejectRequest (s : State) : DecodeError → State
  | .illegalOp _ => s.raise .illegalOp

/-- The requester writes bytes into a memory between two operations (R14, R45). An offset that the
memory does not have stops the model (log 8). -/
def State.requesterWrite (s : State) (m : MemId) (a : Nat) (bs : List Byte) :
    Host.Outcome State Fault Refusal :=
  if bs = [] ∨ a + bs.length ≤ s.size m then .next (s.writeBytes m a bs)
  else .fault .requesterOutOfRange

end Sys2Proof.Machine
end

