-- ==== Sys2Proof/Machine/Checksum.lean ====
section
/-! DEFINITION. ChecksumCodec: CSUM_COMPUTE, CSUM_ENCODE, CSUM_VERIFY (40_checksum.md). -/

namespace Sys2Proof.Machine

/-- CSUM_COMPUTE (R68): every range is checked before any byte is read. -/
def execCsumCompute (ranges : List ByteRange) (s : State) : Host.Outcome State Fault Refusal :=
  .next (if ranges.all s.rangeInside then
      s.deliver (Outputs.ofChk (s.xorRanges ranges))
    else s.raise .capacityFault)

/-- CSUM_ENCODE (R71). -/
def execCsumEncode (c : Byte) (s : State) : Host.Outcome State Fault Refusal :=
  .next (s.deliver (Outputs.ofPair (csumPair c).1 (csumPair c).2))

/-- CSUM_VERIFY (R72). -/
def execCsumVerify (c w1 w2 : Byte) (s : State) : Host.Outcome State Fault Refusal :=
  .next (s.deliver (Outputs.ofMatch (matchFlag c (csumUnpair w1 w2))))

end Sys2Proof.Machine
end

