-- ==== Sys2Proof/Machine/Command.lean ====
section
/-! DEFINITION. CommandChecksumVerifier: CMD_VERIFY (44_command_verify.md). -/

namespace Sys2Proof.Machine

/-- The ChecksumValue of the command packet in PB: nine reconstructed bytes and header bytes 7 to 13
(R59, R64, R92; 90_conflicts.md C5). -/
def commandChecksum (s : State) : Byte :=
  xorBytes (unpackPayload (s.byteAt .pb) 2 1) ^^^ xorRange (s.byteAt .pb) 7 13

/-- CMD_VERIFY (R92): the faults in the order of R103, then the comparison with the pair that stands
at L-3 and L-2 (C6; D21, log 12). -/
def execCmdVerify (s : State) : Host.Outcome State Fault Refusal :=
  .next (s.ifCapacity 25
    (match firstZero s.cap (s.byteAt .pb) with
      | none => s.raise .noTerminator
      | some l =>
        if l < 3 then s.raise .shortPacket
        else s.deliver (Outputs.ofMatch (matchFlag (commandChecksum s)
          (csumUnpair (s.byteAt .pb (l - 3)) (s.byteAt .pb (l - 2)))))))

end Sys2Proof.Machine
end

