-- ==== Sys2Proof/Machine/Control.lean ====
section
/-! DEFINITION. ControlPacketBuilder: BUILD_STATUS, BUILD_STATUS_DIB, BUILD_WRITE_ACK, BUILD_INIT_ACK
(42_control_packets.md). A builder reads neither PB nor SB (R75): the header bytes its checksum covers
are the ones it writes. -/

namespace Sys2Proof.Machine

/-- The status reply, offsets 0 to 22 (R56, R76, R77). -/
def statusPacket (src : Byte) : List Byte :=
  let h := header src typeStatus statFixed 4 0
  h ++ statusWire ++ trailer (xorBytes (generalStatus :: blockCount) ^^^ headerXor h)

/-- The status+device-info reply, offsets 0 to 46 (R57, R78, R79). Its checksum covers the general
status, the two nonzero block-count bytes and the header, not the rest of the payload
(90_conflicts.md C8). -/
def statusDibPacket (src : Byte) : List Byte :=
  let h := header src typeStatus statFixed 4 3
  h ++ dibTemplate ++ trailer (xorBytes (generalStatus :: blockCount.take 2) ^^^ headerXor h)

/-- An acknowledge of the given type, offsets 0 to 17, without payload (R58, R80, R81). -/
def ackPacket (type src stat : Byte) : List Byte :=
  let h := header src type stat 0 0
  h ++ trailer (headerXor h)

/-- BUILD_STATUS (R76). -/
def execBuildStatus (src : Byte) (s : State) : Host.Outcome State Fault Refusal :=
  .next (s.ifCapacity 23 (s.emitPacket (statusPacket src)))

/-- BUILD_STATUS_DIB (R79). -/
def execBuildStatusDib (src : Byte) (s : State) : Host.Outcome State Fault Refusal :=
  .next (s.ifCapacity 47 (s.emitPacket (statusDibPacket src)))

/-- BUILD_WRITE_ACK (R80). -/
def execBuildWriteAck (src stat : Byte) (s : State) : Host.Outcome State Fault Refusal :=
  .next (s.ifCapacity 18 (s.emitPacket (ackPacket typeStatus src stat)))

/-- BUILD_INIT_ACK (R81). -/
def execBuildInitAck (src stat : Byte) (s : State) : Host.Outcome State Fault Refusal :=
  .next (s.ifCapacity 18 (s.emitPacket (ackPacket typeInitAck src stat)))

end Sys2Proof.Machine
end

