-- ==== Sys2Proof/Machine/Framer.lean ====
section
/-! DEFINITION. PacketFramer: PKT_LENGTH (41_framer.md). -/

namespace Sys2Proof.Machine

/-- PKT_LENGTH (R74): the offset of the first zero byte of PB, or NoTerminator (D18; log 9). -/
def execPktLength (s : State) : Host.Outcome State Fault Refusal :=
  .next (match firstZero s.cap (s.byteAt .pb) with
    | some k => s.deliver (Outputs.ofLen k)
    | none => s.raise .noTerminator)

end Sys2Proof.Machine
end

