-- ==== Sys2Proof/Machine/Sector.lean ====
section
/-! DEFINITION. SectorCodec: SECTOR_ENCODE, SECTOR_DECODE (43_sector_codec.md). -/

namespace Sys2Proof.Machine

/-- The sector-data packet, offsets 0 to 603, for the sector that `read` gives (R55, R85). The
checksum is taken over the original sector bytes. -/
def sectorPacket (src : Byte) (read : Nat → Byte) : List Byte :=
  let h := header src typeData statFixed 1 73
  h ++ packPayload [read 0] (sectorGroups read) ++
    trailer (xorRange read 0 511 ^^^ headerXor h)

/-- SECTOR_ENCODE (R85). -/
def execSectorEncode (src : Byte) (s : State) : Host.Outcome State Fault Refusal :=
  .next (s.ifCapacity 604 (s.emitPacket (sectorPacket src (s.byteAt .sb))))

/-- The temporary T of SECTOR_DECODE: the 512 reconstructed bytes (R88, steps 1 and 2). -/
def decodedSector (s : State) : List Byte := unpackPayload (s.byteAt .pb) 1 73

/-- Whether the computed and the transmitted checksum of the sector-data packet in PB agree: header
bytes 7 to 13, pair at 600 and 601 (R88, steps 3 and 4; 90_conflicts.md C4, C6). -/
def sectorAgrees (s : State) : Bool :=
  matchFlag (xorBytes (decodedSector s) ^^^ xorRange (s.byteAt .pb) 7 13)
    (csumUnpair (s.byteAt .pb 600) (s.byteAt .pb 601))

/-- The match arm of R88: SB takes the reconstructed bytes, RESULT is 0. -/
def State.keepSector (s : State) : State :=
  (s.writeBytes .sb 0 (decodedSector s)).deliver (Outputs.ofResult (resultCode true))

/-- The mismatch arm of R88: SB takes any 512 byte values, RESULT is 6 (D19; log 4). -/
def State.loseSector (s : State) : State :=
  (s.writeBytes .sb 0 s.mismatchedSector).countMismatch.deliver (Outputs.ofResult (resultCode false))

/-- SECTOR_DECODE (R88). -/
def execSectorDecode (s : State) : Host.Outcome State Fault Refusal :=
  .next (s.ifCapacity 602 (if sectorAgrees s then s.keepSector else s.loseSector))

end Sys2Proof.Machine
end

