-- ==== Sys2Proof/Machine/Dispatch.lean ====
section
/-! DEFINITION. One arm per operation of 30_encoding.md R42. -/

namespace Sys2Proof.Machine

def exec (i : Instr) (s : State) : Host.Outcome State Fault Refusal :=
  match i with
  | .csumCompute ranges => Sys2Proof.Machine.execCsumCompute ranges s
  | .csumEncode c => Sys2Proof.Machine.execCsumEncode c s
  | .csumVerify c w1 w2 => Sys2Proof.Machine.execCsumVerify c w1 w2 s
  | .pktLength => Sys2Proof.Machine.execPktLength s
  | .buildStatus src => Sys2Proof.Machine.execBuildStatus src s
  | .buildStatusDib src => Sys2Proof.Machine.execBuildStatusDib src s
  | .buildWriteAck src stat => Sys2Proof.Machine.execBuildWriteAck src stat s
  | .buildInitAck src stat => Sys2Proof.Machine.execBuildInitAck src stat s
  | .sectorEncode src => Sys2Proof.Machine.execSectorEncode src s
  | .sectorDecode => Sys2Proof.Machine.execSectorDecode s
  | .cmdVerify => Sys2Proof.Machine.execCmdVerify s

end Sys2Proof.Machine
end

