-- ==== Sys2Proof/Machine/Step.lean ====
section
/-! DEFINITION. One step of the block: the requester's oldest action (10_state.md R13, R14, R16). -/

namespace Sys2Proof.Machine

/-- One step. A request runs whole (R13); a request that selects no operation raises IllegalOp (R44);
a write of the requester falls between two operations (R14); with nothing asked the block waits
(R16; log 1). -/
def step (s : State) : Host.Outcome State Fault Refusal :=
  match s.inbox with
  | [] => .next s
  | .write m a bs :: rest => State.requesterWrite { s with inbox := rest } m a bs
  | .request r :: rest =>
    match decode r with
    | .ok i => exec i { s with inbox := rest }
    | .error e => .next (State.rejectRequest { s with inbox := rest } e)

/-- The state in which the requester presents the request of a table word before anything else it
does; nothing else changes (log 15). -/
def State.withFetchWord (s : State) (nbits w : Nat) : State :=
  { s with inbox := .request (Request.ofTableWord nbits w) :: s.inbox }

end Sys2Proof.Machine
end

