-- ==== Sys2Proof/Safety.lean ====
section
/-! DEFINITION. What every reachable state satisfies, in the terms the statements use. -/

namespace Sys2Proof.Machine

/-- The result outputs hold values that R17 and R95 allow: LEN below CAP, RESULT 0 or 6, both bytes of a
pair together and at least 0xAA (R69), and beside a fault nothing (R94). -/
structure Outputs.Legal (cap : Nat) (o : Outputs) : Prop where
  len_lt : ∀ n, o.len = some n → n < cap
  result_values : ∀ r, o.result = some r → r = 0x00#8 ∨ r = 0x06#8
  w1_range : ∀ w, o.w1 = some w → 0xAA#8 ≤ w
  w2_range : ∀ w, o.w2 = some w → 0xAA#8 ≤ w
  pair_together : o.w1.isSome = o.w2.isSome
  fault_alone : o.fault = some .noFault ∨ o = { Outputs.absent with fault := o.fault }

/-- The invariant of the block: the capacity this hardware has (R7), both memories in canonical form and
inside their bounds (R19, R20, R29), and legal outputs (R17). -/
structure State.Inv (s : State) : Prop where
  capacity : 604 ≤ s.cap
  pb_wf : Memory.wf s.pb
  pb_within : Memory.within s.cap s.pb
  sb_wf : Memory.wf s.sb
  sb_within : Memory.within 512 s.sb
  outputs : Outputs.Legal s.cap s.out

end Sys2Proof.Machine
end

