-- ==== Sys2Proof/Certificates/Slice0/Obligations.lean ====
section
/-! DEFINITION. The statements for the provers. A docstring names the rule of spec/ a statement
formalises; where it rests on a decision of the spec (92_eei_decisions.md D<n>) or of the model
(log n) it says so. Fields of a state that an equation `t = { s with ... }` does not list are
unchanged: that is the statement's frame. `s.size m` is CAP for PB and 512 for SB (R19, R20). -/

open Sys2Proof Sys2Proof.Machine

/-! ### Requests, decoding, the step -/

/-- R42, R44 (select codes: the spec's decision D3; the word's numbering: log 15): the eleven select
codes of the table decode to their operations, the codes above to none, and requests written out in
full decode with the inputs their formats name. -/
def Obligations.WrittenOutRequestsDecode : Prop :=
  (decodeTableWord 8 0x0 = some (.csumCompute []) ∧ decodeTableWord 8 0x1 = some (.csumEncode 0x00#8) ∧
    decodeTableWord 8 0x2 = some (.csumVerify 0x00#8 0x00#8 0x00#8) ∧
    decodeTableWord 8 0x3 = some .pktLength ∧ decodeTableWord 8 0x4 = some (.buildStatus 0x00#8) ∧
    decodeTableWord 8 0x5 = some (.buildStatusDib 0x00#8) ∧
    decodeTableWord 8 0x6 = some (.buildWriteAck 0x00#8 0x00#8) ∧
    decodeTableWord 8 0x7 = some (.buildInitAck 0x00#8 0x00#8) ∧
    decodeTableWord 8 0x8 = some (.sectorEncode 0x00#8) ∧
    decodeTableWord 8 0x9 = some .sectorDecode ∧ decodeTableWord 8 0xA = some .cmdVerify) ∧
  (∀ w ∈ [0xB, 0xC, 0xD, 0xE, 0xF], decodeTableWord 8 w = none) ∧
  decode { op := 0x2#4, ranges := [], c := 0x7F#8, w1 := 0xFF#8, w2 := 0xBF#8, src := 0x11#8, stat := 0x22#8 }
    = .ok (.csumVerify 0x7F#8 0xFF#8 0xBF#8) ∧
  decode { op := 0x6#4, ranges := [], c := 0x01#8, w1 := 0x02#8, w2 := 0x03#8, src := 0x81#8, stat := 0x86#8 }
    = .ok (.buildWriteAck 0x81#8 0x86#8) ∧
  decode { op := 0x0#4, ranges := [⟨.sb, 0, 511⟩, ⟨.pb, 7, 13⟩], c := 0x01#8, w1 := 0x02#8, w2 := 0x03#8,
           src := 0x81#8, stat := 0x86#8 }
    = .ok (.csumCompute [⟨.sb, 0, 511⟩, ⟨.pb, 7, 13⟩])

/-- R42, R43, R44 (decisions D3, D32): decoding undoes encoding for every operation and every operand;
every legal select code decodes; the decoded operation carries the select code and exactly the inputs
that its format names; and the inputs its format does not name have no influence. -/
def Obligations.DecodeAndEncodeAgree : Prop :=
  (∀ i : Instr, decode (encode i) = .ok i) ∧
  (∀ r : Request, r.op.toNat ≤ 10 → ∃ i, decode r = .ok i) ∧
  (∀ (r : Request) (i : Instr), decode r = .ok i →
    (encode i).op = r.op ∧
    (r.op = 0x0#4 → (encode i).ranges = r.ranges) ∧
    (r.op = 0x1#4 ∨ r.op = 0x2#4 → (encode i).c = r.c) ∧
    (r.op = 0x2#4 → (encode i).w1 = r.w1 ∧ (encode i).w2 = r.w2) ∧
    (4 ≤ r.op.toNat ∧ r.op.toNat ≤ 8 → (encode i).src = r.src) ∧
    (r.op = 0x6#4 ∨ r.op = 0x7#4 → (encode i).stat = r.stat)) ∧
  (∀ r r' : Request, r.op = r'.op →
    (r.op = 0x0#4 → r.ranges = r'.ranges) →
    (r.op = 0x1#4 ∨ r.op = 0x2#4 → r.c = r'.c) →
    (r.op = 0x2#4 → r.w1 = r'.w1 ∧ r.w2 = r'.w2) →
    (4 ≤ r.op.toNat ∧ r.op.toNat ≤ 8 → r.src = r'.src) →
    (r.op = 0x6#4 ∨ r.op = 0x7#4 → r.stat = r'.stat) →
    decode r = decode r')

/-- R13 (decision D1; the request held in `inbox`: log 1): where the requester's oldest action is a
request that decodes to an operation, a step is that operation on the state without the request; and
the state `withFetchWord` gives makes the next step run the operation of the word (log 15). -/
def Obligations.StepRunsTheDecodedRequest : Prop :=
  (∀ (s : State) (r : Request) (rest : List Action) (i : Instr),
    s.inbox = .request r :: rest → decode r = .ok i → step s = exec i { s with inbox := rest }) ∧
  (∀ (s : State) (nbits w : Nat) (i : Instr),
    decodeTableWord nbits w = some i → step (s.withFetchWord nbits w) = exec i s)

/-- R44, R96 (decision D32): a request with select code 0xB to 0xF raises IllegalOp, whatever its other
inputs; nothing but the output FAULT changes, and the request leaves `inbox` (log 1). -/
def Obligations.IllegalSelectRaisesIllegalOp : Prop :=
  ∀ (s : State) (r : Request) (rest : List Action),
    s.inbox = .request r :: rest → 11 ≤ r.op.toNat →
    step s = .next { s with inbox := rest, out := { Outputs.absent with fault := some .illegalOp } }

/-- The model's choice (logs 1 and 8; R14, R16): with nothing asked a step changes nothing; a write of
the requester inside its memory changes exactly those bytes; one that names an offset the memory does
not have stops the model. -/
def Obligations.RequesterActsBetweenOperations : Prop :=
  (∀ s : State, s.inbox = [] → step s = .next s) ∧
  (∀ (s : State) (m : MemId) (a : Nat) (bs : List Byte) (rest : List Action),
    s.inbox = .write m a bs :: rest →
    (∀ j, j < bs.length → a + j < s.size m) →
    ∃ t, step s = .next t ∧
      (∀ k, t.byteAt m k = if a ≤ k ∧ k < a + bs.length then bs.getD (k - a) 0x00#8 else s.byteAt m k) ∧
      (∀ m' k, m' ≠ m → t.byteAt m' k = s.byteAt m' k) ∧
      t.cap = s.cap ∧ t.out = s.out ∧ t.inbox = rest ∧ t.mismatchCount = s.mismatchCount) ∧
  (∀ (s : State) (m : MemId) (a : Nat) (bs : List Byte) (rest : List Action) (j : Nat),
    s.inbox = .write m a bs :: rest → j < bs.length →
    s.size m ≤ a + j →
    step s = .fault .requesterOutOfRange)

/-- R94, R105, R106 (decisions D4, D22): every operation answers a next state; a step never refuses, and it
stops only where the requester's oldest action is a write of which some byte lies outside its memory: that
stop and the list of actions are the model's choice (logs 1 and 8, DESIGN CHOICE). -/
def Obligations.EveryRequestIsAnswered : Prop :=
  (∀ (i : Instr) (s : State), ∃ t, exec i s = .next t) ∧
  (∀ s : State, (∃ t, step s = .next t) ∨
    (step s = .fault .requesterOutOfRange ∧ ∃ m a bs rest j, s.inbox = .write m a bs :: rest ∧
      j < bs.length ∧ s.size m ≤ a + j))

/-! ### Reset and invariants -/

/-- R24, R109, R110 (decision D24; logs 2, 3, 5): after reset every byte of PB and SB is the free
power-on value, no output is present, and the capacity is at least 604. That nothing is asked
(`State.reset.inbox = []`) is the model's choice: the spec leaves the requester's actions open (R14, R23), and
reset gives the empty list (log 1, DESIGN CHOICE). -/
def Obligations.ResetLeavesEveryByteUnspecified : Prop :=
  (∀ m k, State.reset.byteAt m k = Config.powerOnByte m k) ∧
  State.reset.out = { chk := none, w1 := none, w2 := none, isMatch := none, len := none, result := none,
                      fault := none } ∧
  State.reset.inbox = [] ∧ 604 ≤ State.reset.cap

/-- The invariant holds at reset (log 2 for the capacity). -/
def Obligations.ResetSatisfiesTheInvariant : Prop := State.Inv State.reset

/-- R7, R17, R19, R20 (decision D5): every step from every state that satisfies the invariant gives one
that does: the capacity stays at least 604, both memories stay canonical and inside their bounds, LEN
stays below CAP, RESULT is 0 or 6, the checksum pair is at least 0xAA, and a fault is delivered alone. -/
def Obligations.StepKeepsTheInvariant : Prop :=
  ∀ s t : State, State.Inv s → step s = .next t → State.Inv t

/-! ### The whole machine -/

/-- R25, R37: an operation changes no byte outside the "writes" column of R25: builders PB up to their
terminator, SECTOR_ENCODE PB[0..603], SECTOR_DECODE SB[0..511], the others no memory. That PB above the
terminator is unchanged after a builder or SECTOR_ENCODE is the spec's own choice, which the model follows
(R38, decision D16; log 7, DESIGN CHOICE, unsafe). That the capacity and what the requester does next are
unchanged is the model's choice: both are fields of its own (logs 1 and 2, DESIGN CHOICE). -/
def Obligations.OperationsChangeOnlyTheirWriteSet : Prop :=
  ∀ (i : Instr) (s t : State), exec i s = .next t →
    (∀ k, (match i with
        | .buildStatus _ => 22 < k
        | .buildStatusDib _ => 46 < k
        | .buildWriteAck _ _ => 17 < k
        | .buildInitAck _ _ => 17 < k
        | .sectorEncode _ => 603 < k
        | _ => True) → t.byteAt .pb k = s.byteAt .pb k) ∧
    (∀ k, (match i with
        | .sectorDecode => 511 < k
        | _ => True) → t.byteAt .sb k = s.byteAt .sb k) ∧
    t.cap = s.cap ∧ t.inbox = s.inbox

/-- R94, R95, R104 (decision D22): every operation delivers FAULT; where it is a fault, no other output
is delivered and nothing else of the state changes. -/
def Obligations.FaultDeliversOnlyItsName : Prop :=
  ∀ (i : Instr) (s t : State), exec i s = .next t →
    ∃ f, t.out.fault = some f ∧
      (f ≠ .noFault → t = { s with out := { Outputs.absent with fault := some f } })

/-- R17 (decisions D4, D22): an operation that completes delivers exactly the outputs of its row of the
table. -/
def Obligations.CompletedOperationDeliversItsOutputs : Prop :=
  ∀ (i : Instr) (s t : State), exec i s = .next t → t.out.fault = some .noFault →
    (t.out.chk.isSome ↔ ∃ ranges, i = .csumCompute ranges) ∧
    (t.out.w1.isSome ↔ ∃ c, i = .csumEncode c) ∧
    (t.out.w2.isSome ↔ ∃ c, i = .csumEncode c) ∧
    (t.out.isMatch.isSome ↔ (∃ c w1 w2, i = .csumVerify c w1 w2) ∨ i = .cmdVerify) ∧
    (t.out.len.isSome ↔ i = .pktLength) ∧
    (t.out.result.isSome ↔ i = .sectorDecode)

/-- R22 (SB after a mismatch is free, D19, log 4, and so is left out): the outputs and the final bytes of
PB and SB depend on the operation, its operands, CAP and the initial bytes alone; not on earlier outputs,
on the requester's plans or on how the bytes came to be there. -/
def Obligations.ResultDependsOnlyOnInputsAndBuffers : Prop :=
  ∀ (i : Instr) (s s' t t' : State), s.cap = s'.cap →
    (∀ m k, s.byteAt m k = s'.byteAt m k) → exec i s = .next t → exec i s' = .next t' →
    t.out = t'.out ∧ (∀ k, t.byteAt .pb k = t'.byteAt .pb k) ∧
    (t.out.result ≠ some 0x06#8 → ∀ k, t.byteAt .sb k = t'.byteAt .sb k)

/-- R105 (decision D22): no fault is sticky: what an operation does after any outcome is what it does
without it. -/
def Obligations.EarlierOutcomesDoNotMatter : Prop :=
  ∀ (i : Instr) (s : State) (o : Outputs), exec i { s with out := o } = exec i s

/-- R29, R97 (decision D5): below the least capacity of the operation, CapacityFault and nothing else. -/
def Obligations.CapacityFaultBelowTheLeastCapacity : Prop :=
  ∀ (s : State) (src stat : Byte),
    let faulted : State := { s with out := { Outputs.absent with fault := some .capacityFault } }
    (s.cap < 18 → exec (.buildWriteAck src stat) s = .next faulted) ∧
    (s.cap < 18 → exec (.buildInitAck src stat) s = .next faulted) ∧
    (s.cap < 23 → exec (.buildStatus src) s = .next faulted) ∧
    (s.cap < 47 → exec (.buildStatusDib src) s = .next faulted) ∧
    (s.cap < 604 → exec (.sectorEncode src) s = .next faulted) ∧
    (s.cap < 602 → exec .sectorDecode s = .next faulted) ∧
    (s.cap < 25 → exec .cmdVerify s = .next faulted)

/-- R97 (decision D5): with the capacity of this hardware CapacityFault comes exactly from a CSUM_COMPUTE
with a non-empty range that ends outside its memory. -/
def Obligations.CapacityFaultOnlyFromChecksumRanges : Prop :=
  ∀ (i : Instr) (s t : State), 604 ≤ s.cap → exec i s = .next t →
    (t.out.fault = some .capacityFault ↔
      ∃ ranges, i = .csumCompute ranges ∧
        ∃ r ∈ ranges, r.first ≤ r.last ∧ s.size r.mem ≤ r.last)

/-- R101: no encode path has an abnormal outcome but CapacityFault; operands that breach the caller contract
raise nothing, and the packet simply contains them. -/
def Obligations.EncodePathsOnlyFaultOnCapacity : Prop :=
  ∀ (i : Instr) (s t : State) (src stat : Byte),
    (i = .buildStatus src ∨ i = .buildStatusDib src ∨ i = .buildWriteAck src stat ∨
      i = .buildInitAck src stat ∨ i = .sectorEncode src) →
    exec i s = .next t →
    t.out.fault = some .capacityFault ∨
      (t.out.fault = some .noFault ∧ t.byteAt .pb 8 = src ∧
        (i = .buildWriteAck src stat ∨ i = .buildInitAck src stat → t.byteAt .pb 11 = stat))

/-! ### ChecksumCodec -/

/-- R67: xor_range is the XOR of the bytes from its first to its last offset, `0x00` when there are none,
in whatever order they are taken. -/
def Obligations.XorRangeIsTheXorOfItsBytes : Prop :=
  ∀ (read : Nat → Byte) (a : Nat),
    (∀ b, b < a → xorRange read a b = 0x00#8) ∧
    xorRange read a a = read a ∧
    (∀ b, a ≤ b → xorRange read a (b + 1) = xorRange read a b ^^^ read (b + 1)) ∧
    (∀ (b : Nat) (order : List Nat), order.Perm (List.range' a (b + 1 - a)) →
      (order.map read).foldl (· ^^^ ·) 0x00#8 = xorRange read a b)

/-- R68 (decisions D5, D30): CSUM_COMPUTE whose non-empty ranges end inside their memories delivers the XOR
of all the bytes its ranges name, and nothing else changes. -/
def Obligations.CsumComputeDeliversTheXor : Prop :=
  ∀ (ranges : List ByteRange) (s : State),
    (∀ r ∈ ranges, r.first ≤ r.last → r.last < s.size r.mem) →
    exec (.csumCompute ranges) s = .next { s with
      out := { Outputs.absent with
        chk := some ((ranges.flatMap fun r =>
          (List.range (r.last + 1 - r.first)).map fun k => s.byteAt r.mem (r.first + k)).foldl
            (· ^^^ ·) 0x00#8)
        fault := some .noFault } }

/-- R29, R68 (decision D5): CSUM_COMPUTE with a non-empty range that ends at or beyond the size of its
memory raises CapacityFault, whatever the other ranges are. -/
def Obligations.CsumComputeFaultsOutsideItsMemory : Prop :=
  ∀ (ranges : List ByteRange) (r : ByteRange) (s : State),
    r ∈ ranges → r.first ≤ r.last → s.size r.mem ≤ r.last →
    exec (.csumCompute ranges) s =
      .next { s with out := { Outputs.absent with fault := some .capacityFault } }

/-- R67, R68 (decision D30): the order of the ranges does not matter, and a range named twice cancels. -/
def Obligations.CsumComputeIgnoresOrderAndCancels : Prop :=
  (∀ (ranges ranges' : List ByteRange) (s : State), ranges.Perm ranges' →
    exec (.csumCompute ranges) s = exec (.csumCompute ranges') s) ∧
  (∀ (r : ByteRange) (rest : List ByteRange) (s : State),
    (r.first ≤ r.last → r.last < s.size r.mem) →
    exec (.csumCompute (r :: r :: rest)) s = exec (.csumCompute rest) s)

/-- R71: CSUM_ENCODE delivers the pair for every c, never faults, and changes nothing else. -/
def Obligations.CsumEncodeDeliversThePair : Prop :=
  ∀ (c : Byte) (s : State),
    exec (.csumEncode c) s = .next { s with
      out := { Outputs.absent with
        w1 := some (c ||| 0xAA#8), w2 := some ((c >>> 1) ||| 0xAA#8), fault := some .noFault } }

/-- R69: bit by bit, W1 carries the even-numbered bits of c in place and W2 the odd-numbered ones moved
down one position; bits 7, 5, 3, 1 of both are 1; both lie in 0xAA to 0xFF. -/
def Obligations.PairCarriesTheChecksumBits : Prop :=
  ∀ (c : Byte) (s t : State), exec (.csumEncode c) s = .next t →
    ∃ w1 w2, t.out.w1 = some w1 ∧ t.out.w2 = some w2 ∧
      (∀ j, j < 4 → w1.getLsbD (2 * j) = c.getLsbD (2 * j) ∧ w1.getLsbD (2 * j + 1) = true ∧
        w2.getLsbD (2 * j) = c.getLsbD (2 * j + 1) ∧ w2.getLsbD (2 * j + 1) = true) ∧
      170 ≤ w1.toNat ∧ 170 ≤ w2.toNat

/-- R72 (binding of the operands: decision D10): CSUM_VERIFY delivers whether c is the value carried by the
pair, bits 6, 4, 2, 0 of each byte alone; it never faults and changes nothing else. -/
def Obligations.CsumVerifyComparesTheCarriedValue : Prop :=
  ∀ (c w1 w2 : Byte) (s : State),
    exec (.csumVerify c w1 w2) s = .next { s with
      out := { Outputs.absent with
        isMatch := some (decide (∀ j : Fin 4, c.getLsbD (2 * j.val) = w1.getLsbD (2 * j.val) ∧
          c.getLsbD (2 * j.val + 1) = w2.getLsbD (2 * j.val)))
        fault := some .noFault } }

/-- R70, R72 (decision D10): the pair CSUM_ENCODE delivers for c verifies against c and no other value;
with its bytes exchanged it verifies only when c7 = c6, c5 = c4, c3 = c2 and c1 = c0. -/
def Obligations.EncodedPairVerifiesItsChecksum : Prop :=
  ∀ (c : Byte) (s t : State), exec (.csumEncode c) s = .next t →
    ∃ w1 w2, t.out.w1 = some w1 ∧ t.out.w2 = some w2 ∧
      (∀ (d : Byte) (u v : State), exec (.csumVerify d w1 w2) u = .next v →
        (v.out.isMatch = some true ↔ d = c) ∧ (v.out.isMatch = some false ↔ d ≠ c)) ∧
      (∀ u v : State, exec (.csumVerify c w2 w1) u = .next v →
        (v.out.isMatch = some true ↔ ∀ j, j < 4 → c.getLsbD (2 * j) = c.getLsbD (2 * j + 1)))

/-! ### PacketFramer -/

/-- R73: first_zero is the least offset below CAP whose byte is `0x00`, and none when there is none. -/
def Obligations.FirstZeroIsTheLeastZeroOffset : Prop :=
  ∀ (cap : Nat) (read : Nat → Byte),
    (∀ k, firstZero cap read = some k ↔
      k < cap ∧ read k = 0x00#8 ∧ ∀ j, j < k → read j ≠ 0x00#8) ∧
    (firstZero cap read = none ↔ ∀ k, k < cap → read k ≠ 0x00#8)

/-- R74 (the bound CAP: decision D5): PKT_LENGTH delivers the offset of the first zero byte of PB; bytes
after it do not matter; nothing else changes. -/
def Obligations.PktLengthDeliversTheFirstZero : Prop :=
  ∀ (s : State) (l : Nat), l < s.cap → s.byteAt .pb l = 0x00#8 →
    (∀ k, k < l → s.byteAt .pb k ≠ 0x00#8) →
    exec .pktLength s =
      .next { s with out := { Outputs.absent with len := some l, fault := some .noFault } }

/-- R74, R92, R98 (decision D18, log 9): with no zero byte in PB, PKT_LENGTH and CMD_VERIFY raise
NoTerminator and deliver nothing else. -/
def Obligations.UnterminatedBufferRaisesNoTerminator : Prop :=
  ∀ s : State, (∀ k, k < s.cap → s.byteAt .pb k ≠ 0x00#8) →
    exec .pktLength s = .next { s with out := { Outputs.absent with fault := some .noTerminator } } ∧
    (25 ≤ s.cap →
      exec .cmdVerify s = .next { s with out := { Outputs.absent with fault := some .noTerminator } })

/-! ### ControlPacketBuilder -/

/-- R56, R76, R77 (decisions D11, D12, D13; log 11): BUILD_STATUS writes the 23 bytes of the status reply, with
the checksum src ^ 0xFD, and changes nothing else but FAULT. That PB above offset 22 is unchanged is the spec's
own choice, which the model follows (R38, decision D16; log 7, DESIGN CHOICE, unsafe). -/
def Obligations.BuildStatusWritesTheStatusReply : Prop :=
  ∀ (src : Byte) (s : State), 23 ≤ s.cap →
    ∃ t, exec (.buildStatus src) s = .next t ∧
      (∀ k b, ([0xFF#8, 0x3F#8, 0xCF#8, 0xF3#8, 0xFC#8, 0xFF#8, 0xC3#8, 0x80#8, src, 0x81#8, 0x80#8,
          0x80#8, 0x84#8, 0x80#8, 0xF0#8, 0xF8#8, 0xFF#8, 0xFF#8, 0x80#8, (src ^^^ 0xFD#8) ||| 0xAA#8,
          ((src ^^^ 0xFD#8) >>> 1) ||| 0xAA#8, 0xC8#8, 0x00#8] : List Byte)[k]? = some b →
        t.byteAt .pb k = b) ∧
      (∀ k, 22 < k → t.byteAt .pb k = s.byteAt .pb k) ∧
      t = { s with pb := t.pb, out := { Outputs.absent with fault := some .noFault } }

/-- R57, R78, R79 (decisions D11, D14, D15; log 11): BUILD_STATUS_DIB writes the 47 bytes of the
status+device-info reply, with the checksum src ^ 0xFE, and changes nothing else but FAULT. That PB above
offset 46 is unchanged is the spec's own choice, which the model follows (R38, decision D16; log 7, DESIGN
CHOICE, unsafe). -/
def Obligations.BuildStatusDibWritesTheDeviceInfoReply : Prop :=
  ∀ (src : Byte) (s : State), 47 ≤ s.cap →
    ∃ t, exec (.buildStatusDib src) s = .next t ∧
      (∀ k b, ([0xFF#8, 0x3F#8, 0xCF#8, 0xF3#8, 0xFC#8, 0xFF#8, 0xC3#8, 0x80#8, src, 0x81#8, 0x80#8,
          0x80#8, 0x84#8, 0x83#8, 0xF0#8, 0xF8#8, 0xFF#8, 0xFF#8, 0x80#8, 0x8D#8, 0x53#8, 0x6D#8, 0x80#8,
          0x61#8, 0x72#8, 0x74#8, 0x70#8, 0x6F#8, 0x72#8, 0x74#8, 0x80#8, 0x20#8, 0x53#8, 0x44#8, 0x20#8,
          0x20#8, 0x20#8, 0x20#8, 0x80#8, 0x82#8, 0x80#8, 0x81#8, 0x90#8, (src ^^^ 0xFE#8) ||| 0xAA#8,
          ((src ^^^ 0xFE#8) >>> 1) ||| 0xAA#8, 0xC8#8, 0x00#8] : List Byte)[k]? = some b →
        t.byteAt .pb k = b) ∧
      (∀ k, 46 < k → t.byteAt .pb k = s.byteAt .pb k) ∧
      t = { s with pb := t.pb, out := { Outputs.absent with fault := some .noFault } }

/-- R58, R80 (decisions D11, D12; log 11): BUILD_WRITE_ACK writes its 18 bytes, with the checksum
src ^ stat ^ 0x81, and changes nothing else but FAULT. That PB above offset 17 is unchanged is the spec's own
choice, which the model follows (R38, decision D16; log 7, DESIGN CHOICE, unsafe). -/
def Obligations.BuildWriteAckWritesTheWriteAck : Prop :=
  ∀ (src stat : Byte) (s : State), 18 ≤ s.cap →
    ∃ t, exec (.buildWriteAck src stat) s = .next t ∧
      (∀ k b, ([0xFF#8, 0x3F#8, 0xCF#8, 0xF3#8, 0xFC#8, 0xFF#8, 0xC3#8, 0x80#8, src, 0x81#8, 0x80#8, stat,
          0x80#8, 0x80#8, (src ^^^ stat ^^^ 0x81#8) ||| 0xAA#8, ((src ^^^ stat ^^^ 0x81#8) >>> 1) ||| 0xAA#8,
          0xC8#8, 0x00#8] : List Byte)[k]? = some b →
        t.byteAt .pb k = b) ∧
      (∀ k, 17 < k → t.byteAt .pb k = s.byteAt .pb k) ∧
      t = { s with pb := t.pb, out := { Outputs.absent with fault := some .noFault } }

/-- R58, R81 (decisions D11, D12; log 11): BUILD_INIT_ACK writes its 18 bytes, with the checksum
src ^ stat ^ 0x80, and changes nothing else but FAULT. That PB above offset 17 is unchanged is the spec's own
choice, which the model follows (R38, decision D16; log 7, DESIGN CHOICE, unsafe). -/
def Obligations.BuildInitAckWritesTheInitAck : Prop :=
  ∀ (src stat : Byte) (s : State), 18 ≤ s.cap →
    ∃ t, exec (.buildInitAck src stat) s = .next t ∧
      (∀ k b, ([0xFF#8, 0x3F#8, 0xCF#8, 0xF3#8, 0xFC#8, 0xFF#8, 0xC3#8, 0x80#8, src, 0x80#8, 0x80#8, stat,
          0x80#8, 0x80#8, (src ^^^ stat ^^^ 0x80#8) ||| 0xAA#8, ((src ^^^ stat ^^^ 0x80#8) >>> 1) ||| 0xAA#8,
          0xC8#8, 0x00#8] : List Byte)[k]? = some b →
        t.byteAt .pb k = b) ∧
      (∀ k, 17 < k → t.byteAt .pb k = s.byteAt .pb k) ∧
      t = { s with pb := t.pb, out := { Outputs.absent with fault := some .noFault } }

/-- R82 (1): building the same packet again changes nothing at all, for any initial PB; SECTOR_ENCODE, which
leaves SB alone (R37), likewise. That the second build leaves PB above the terminator unchanged is the spec's
own choice, which the model follows (R38, decision D16; log 7, DESIGN CHOICE, unsafe). -/
def Obligations.BuildingTwiceChangesNothing : Prop :=
  ∀ (i : Instr) (s t : State) (src stat : Byte),
    (i = .buildStatus src ∨ i = .buildStatusDib src ∨ i = .buildWriteAck src stat ∨
      i = .buildInitAck src stat ∨ i = .sectorEncode src) →
    exec i s = .next t → exec i t = .next t

/-- R39, R74 (valid operands: R113, decision D29): PKT_LENGTH after a builder or SECTOR_ENCODE with operands
whose bit 7 is 1 delivers that packet's length: 22, 46, 17, 17, 603. -/
def Obligations.PktLengthFindsTheBuiltTerminator : Prop :=
  ∀ (i : Instr) (s t : State) (src stat : Byte) (l : Nat),
    src.getLsbD 7 = true → stat.getLsbD 7 = true →
    (i = .buildStatus src ∧ l = 22 ∨ i = .buildStatusDib src ∧ l = 46 ∨ i = .buildWriteAck src stat ∧ l = 17 ∨
      i = .buildInitAck src stat ∧ l = 17 ∨ i = .sectorEncode src ∧ l = 603) →
    l < s.cap → exec i s = .next t →
    exec .pktLength t = .next { t with out := { Outputs.absent with len := some l, fault := some .noFault } }

/-- R113 (decision D29, log 13): a zero operand raises nothing; the packet then has a zero byte before its
terminator, and PKT_LENGTH delivers 8 for a zero source id and 11 for a zero status. -/
def Obligations.ZeroOperandShortensTheMeasuredPacket : Prop :=
  ∀ (i : Instr) (s t : State) (src stat : Byte), 604 ≤ s.cap → exec i s = .next t →
    ((i = .buildStatus 0x00#8 ∨ i = .buildStatusDib 0x00#8 ∨ i = .buildWriteAck 0x00#8 stat ∨
        i = .buildInitAck 0x00#8 stat ∨ i = .sectorEncode 0x00#8) →
      t.out.fault = some .noFault ∧
      exec .pktLength t = .next { t with out := { Outputs.absent with len := some 8, fault := some .noFault } }) ∧
    (src ≠ 0x00#8 → (i = .buildWriteAck src 0x00#8 ∨ i = .buildInitAck src 0x00#8) →
      t.out.fault = some .noFault ∧
      exec .pktLength t = .next { t with out := { Outputs.absent with len := some 11, fault := some .noFault } })

/-- R50, R82 (2) (BUILD_STATUS_DIB is excepted there, decision D14; valid operands: R113): every byte of the
status reply and of the acknowledges from offset 6 to the end marker has bit 7 = 1. -/
def Obligations.ControlPacketsAreSevenBitClean : Prop :=
  ∀ (i : Instr) (s t : State) (src stat : Byte) (l k : Nat),
    src.getLsbD 7 = true → stat.getLsbD 7 = true →
    (i = .buildStatus src ∧ l = 22 ∨ i = .buildWriteAck src stat ∧ l = 17 ∨ i = .buildInitAck src stat ∧ l = 17) →
    l < s.cap → exec i s = .next t → 6 ≤ k → k < l → (t.byteAt .pb k).getLsbD 7 = true

/-! ### SectorCodec -/

/-- R53: unpack takes bit 7 from bit 6-i of the carrier and bits 6 to 0 from the data byte, looks at nothing
else, and inverts the packing of a section of one to seven bytes. -/
def Obligations.UnpackInvertsTheCarrier : Prop :=
  (∀ (m d : Byte) (i : Nat), i ≤ 6 →
    (unpack m i d).getLsbD 7 = m.getLsbD (6 - i) ∧
    ∀ j, j < 7 → (unpack m i d).getLsbD j = d.getLsbD j) ∧
  (∀ (bs : List Byte) (i : Nat) (b : Byte), bs.length ≤ 7 → bs[i]? = some b →
    unpack (carrier bs) i (b ||| 0x80#8) = b)

/-- R83, R84, R55, R85: after SECTOR_ENCODE the wire image of the sector stands at PB[14..599]: carrier and data
byte of SB[0] at 14 and 15; for g = 0 to 72 the carrier of SB[1+7g..7+7g] at 16+8g, its bit 6-i the bit 7 of
byte i, and the seven bytes at 17+8g to 23+8g with bit 7 replaced by 1. That the unused bits 5 to 0 of PB[14]
are zero, so that it is exactly 0xC0 or 0x80, is the spec's own choice (decision D17 in R51, R55 and R85;
log 11, UNVERIFIED, unsafe). -/
def Obligations.SectorEncodePacksTheSector : Prop :=
  ∀ (src : Byte) (s : State), 604 ≤ s.cap →
    ∃ t, exec (.sectorEncode src) s = .next t ∧
      t.byteAt .pb 14 = (if (s.byteAt .sb 0).getLsbD 7 then 0xC0#8 else 0x80#8) ∧
      t.byteAt .pb 15 = s.byteAt .sb 0 ||| 0x80#8 ∧
      ∀ g, g < 73 → (t.byteAt .pb (16 + 8 * g)).getLsbD 7 = true ∧
        ∀ i, i < 7 →
          (t.byteAt .pb (16 + 8 * g)).getLsbD (6 - i) = (s.byteAt .sb (1 + 7 * g + i)).getLsbD 7 ∧
          t.byteAt .pb (17 + 8 * g + i) = s.byteAt .sb (1 + 7 * g + i) ||| 0x80#8

/-- R55, R85 (decisions D5, D11, D12; log 11): the header, the trailer and the frame of SECTOR_ENCODE: its
checksum is the XOR of the 512 original bytes and of the header, src ^ 0x4A; SB is unchanged (R37). That PB
above 603 is unchanged is the spec's own choice, which the model follows (R38, decision D16; log 7, DESIGN
CHOICE, unsafe). -/
def Obligations.SectorEncodeWritesHeaderAndTrailer : Prop :=
  ∀ (src : Byte) (s : State), 604 ≤ s.cap →
    ∃ t, exec (.sectorEncode src) s = .next t ∧
      (∀ k b, ([0xFF#8, 0x3F#8, 0xCF#8, 0xF3#8, 0xFC#8, 0xFF#8, 0xC3#8, 0x80#8, src, 0x82#8, 0x80#8, 0x80#8,
          0x81#8, 0xC9#8] : List Byte)[k]? = some b → t.byteAt .pb k = b) ∧
      (∀ c, c = ((List.range 512).map (s.byteAt .sb)).foldl (· ^^^ ·) (src ^^^ 0x4A#8) →
        t.byteAt .pb 600 = c ||| 0xAA#8 ∧ t.byteAt .pb 601 = (c >>> 1) ||| 0xAA#8) ∧
      t.byteAt .pb 602 = 0xC8#8 ∧ t.byteAt .pb 603 = 0x00#8 ∧
      (∀ k, 603 < k → t.byteAt .pb k = s.byteAt .pb k) ∧
      t = { s with pb := t.pb, out := { Outputs.absent with fault := some .noFault } }

/-- R87: with src[7] = 1, every PB[k], 6 <= k <= 602, has bit 7 = 1 after SECTOR_ENCODE, and PB[603] is the
only zero byte of PB[0..603]. -/
def Obligations.SectorPacketIsSevenBitClean : Prop :=
  ∀ (src : Byte) (s t : State), 604 ≤ s.cap → src.getLsbD 7 = true → exec (.sectorEncode src) s = .next t →
    (∀ k, 6 ≤ k → k ≤ 602 → (t.byteAt .pb k).getLsbD 7 = true) ∧
    (∀ k, k ≤ 603 → (t.byteAt .pb k = 0x00#8 ↔ k = 603))

/-- R86: for every content of SB and every src, SECTOR_DECODE on the packet that SECTOR_ENCODE left, with SB
overwritten by anything in between, delivers RESULT = 0 and gives the sector back. -/
def Obligations.SectorRoundTrip : Prop :=
  ∀ (src : Byte) (s t : State) (garbage : Memory), 604 ≤ s.cap → exec (.sectorEncode src) s = .next t →
    ∃ u, exec .sectorDecode { t with sb := garbage } = .next u ∧ u.out.result = some 0x00#8 ∧
      u.out.fault = some .noFault ∧ (∀ k, k < 512 → u.byteAt .sb k = s.byteAt .sb k) ∧ u.pb = t.pb

/-- R88 (decisions D6, D7, D8, D19, D20; log 10): SECTOR_DECODE reconstructs T from the wire image, compares the XOR
of T and of PB[7..13] with the value the pair at 600, 601 carries, and delivers RESULT = 0 with SB = T, or RESULT = 6
with nothing said of SB. PB and everything outside SB[0..511] are unchanged, but for the counter of mismatches
(log 4). -/
def Obligations.SectorDecodeReconstructsAndCompares : Prop :=
  ∀ s : State, 602 ≤ s.cap →
    ∃ t, exec .sectorDecode s = .next t ∧
      t = { s with sb := t.sb, out := t.out, mismatchCount := t.mismatchCount } ∧
      (∀ k, 511 < k → t.byteAt .sb k = s.byteAt .sb k) ∧
      ∀ orig : Nat → Byte,
        orig 0 = (((s.byteAt .pb 14) <<< 1) &&& 0x80#8) ||| (s.byteAt .pb 15 &&& 0x7F#8) →
        (∀ g i, g < 73 → i < 7 → orig (1 + 7 * g + i) =
          (((s.byteAt .pb (16 + 8 * g)) <<< (i + 1)) &&& 0x80#8) |||
            (s.byteAt .pb (17 + 8 * g + i) &&& 0x7F#8)) →
        if ((List.range 512).map orig).foldl (· ^^^ ·) 0x00#8 ^^^
              ((List.range 7).map fun k => s.byteAt .pb (7 + k)).foldl (· ^^^ ·) 0x00#8 =
            (s.byteAt .pb 600 &&& 0x55#8) ||| ((s.byteAt .pb 601 &&& 0x55#8) <<< 1) then
          t.out = { Outputs.absent with result := some 0x00#8, fault := some .noFault } ∧
          (∀ k, k < 512 → t.byteAt .sb k = orig k) ∧ t.mismatchCount = s.mismatchCount
        else
          t.out = { Outputs.absent with result := some 0x06#8, fault := some .noFault } ∧
          t.mismatchCount = s.mismatchCount + 1

/-- R88 (decisions D6, D20): bit 7 of every wire byte at 14 to 599, bits 5 to 0 of PB[14], bits 7, 5, 3, 1 of
PB[600] and PB[601], and all bytes at offsets 0 to 6 and from 602 on do not influence the result. -/
def Obligations.SectorDecodeIgnoresUnreadBits : Prop :=
  ∀ s s' t t' : State, 602 ≤ s.cap → 602 ≤ s'.cap →
    (∀ k, 7 ≤ k → k ≤ 13 → s.byteAt .pb k = s'.byteAt .pb k) →
    (s.byteAt .pb 14).getLsbD 6 = (s'.byteAt .pb 14).getLsbD 6 →
    (∀ k j, 15 ≤ k → k ≤ 599 → j < 7 → (s.byteAt .pb k).getLsbD j = (s'.byteAt .pb k).getLsbD j) →
    (∀ k j, 600 ≤ k → k ≤ 601 → j < 4 → (s.byteAt .pb k).getLsbD (2 * j) = (s'.byteAt .pb k).getLsbD (2 * j)) →
    exec .sectorDecode s = .next t → exec .sectorDecode s' = .next t' →
    t.out = t'.out ∧ (t.out.result = some 0x00#8 → ∀ k, k < 512 → t.byteAt .sb k = t'.byteAt .sb k)

/-- R89: one flipped bit of a packet that SECTOR_ENCODE made is caught (RESULT = 6) when it is a bit of a header
byte at 7 to 13, bit 6 of PB[14], one of bits 6 to 0 at 15 to 599, or one of bits 6, 4, 2, 0 of the pair. -/
def Obligations.SectorDecodeCatchesAFlippedBit : Prop :=
  ∀ (src : Byte) (s t : State) (k j : Nat), 604 ≤ s.cap → exec (.sectorEncode src) s = .next t →
    (7 ≤ k ∧ k ≤ 13 ∧ j < 8 ∨ k = 14 ∧ j = 6 ∨ 15 ≤ k ∧ k ≤ 599 ∧ j < 7 ∨
      600 ≤ k ∧ k ≤ 601 ∧ (j = 0 ∨ j = 2 ∨ j = 4 ∨ j = 6)) →
    ∃ u, exec .sectorDecode (t.writeBytes .pb k [t.byteAt .pb k ^^^ (0x01#8 <<< j)]) = .next u ∧
      u.out.result = some 0x06#8

/-- R89: every other single flipped bit is not seen: RESULT = 0 and the original sector. -/
def Obligations.SectorDecodeMissesAnUncoveredBit : Prop :=
  ∀ (src : Byte) (s t : State) (k j : Nat), 604 ≤ s.cap → exec (.sectorEncode src) s = .next t → j < 8 →
    (k ≤ 6 ∨ k = 14 ∧ j ≠ 6 ∨ 15 ≤ k ∧ k ≤ 599 ∧ j = 7 ∨
      600 ≤ k ∧ k ≤ 601 ∧ (j = 1 ∨ j = 3 ∨ j = 5 ∨ j = 7) ∨ 602 ≤ k ∧ k < s.cap) →
    ∃ u, exec .sectorDecode (t.writeBytes .pb k [t.byteAt .pb k ^^^ (0x01#8 <<< j)]) = .next u ∧
      u.out.result = some 0x00#8 ∧ ∀ n, n < 512 → u.byteAt .sb n = s.byteAt .sb n

/-- R100: after a mismatch PB is unchanged and the same packet gets the same verdict again; for CMD_VERIFY and
CSUM_VERIFY a mismatch changes nothing but the outputs. -/
def Obligations.MismatchLeavesThePacketForARetry : Prop :=
  (∀ s t : State, exec .sectorDecode s = .next t → t.out.result = some 0x06#8 →
    t.pb = s.pb ∧ ∃ u, exec .sectorDecode t = .next u ∧ u.out = t.out) ∧
  (∀ s t : State, exec .cmdVerify s = .next t → t.out.isMatch = some false →
    t = { s with out := { Outputs.absent with isMatch := some false, fault := some .noFault } } ∧
    exec .cmdVerify t = .next t) ∧
  (∀ (s t : State) (c w1 w2 : Byte), exec (.csumVerify c w1 w2) s = .next t → t.out.isMatch = some false →
    t = { s with out := { Outputs.absent with isMatch := some false, fault := some .noFault } })

/-! ### CommandChecksumVerifier -/

/-- R91, R92 (decisions D6, D9, D20, D21; logs 10, 12): where the first zero byte of PB stands at l, 3 <= l, CMD_VERIFY
delivers whether the XOR of the nine reconstructed bytes and of PB[7..13] is the value the pair at l-3, l-2
carries; nothing else changes. -/
def Obligations.CmdVerifyComparesTheCommandChecksum : Prop :=
  ∀ (s : State) (l : Nat), 25 ≤ s.cap → 3 ≤ l → l < s.cap → s.byteAt .pb l = 0x00#8 →
    (∀ k, k < l → s.byteAt .pb k ≠ 0x00#8) →
    exec .cmdVerify s = .next { s with
      out := { Outputs.absent with
        isMatch := some (decide (
          ((((s.byteAt .pb 14) <<< 1) &&& 0x80#8) ||| (s.byteAt .pb 15 &&& 0x7F#8)) ^^^
          ((((s.byteAt .pb 14) <<< 2) &&& 0x80#8) ||| (s.byteAt .pb 16 &&& 0x7F#8)) ^^^
          ((List.range 7).map fun i =>
            (((s.byteAt .pb 17) <<< (i + 1)) &&& 0x80#8) ||| (s.byteAt .pb (18 + i) &&& 0x7F#8)).foldl
              (· ^^^ ·) 0x00#8 ^^^
          ((List.range 7).map fun k => s.byteAt .pb (7 + k)).foldl (· ^^^ ·) 0x00#8 =
          ((s.byteAt .pb (l - 3)) &&& 0x55#8) ||| (((s.byteAt .pb (l - 2)) &&& 0x55#8) <<< 1)))
        fault := some .noFault } }

/-- R92, R99, R103 (decisions D5, D18, D21, D23; logs 9, 12): the faults of CMD_VERIFY and their order: CapacityFault
below 25 bytes, else NoTerminator without a zero byte, else ShortPacket with the terminator below offset 3, else no
fault. -/
def Obligations.CmdVerifyFaultPriority : Prop :=
  ∀ s t : State, exec .cmdVerify s = .next t →
    (t.out.fault = some .capacityFault ↔ s.cap < 25) ∧
    (t.out.fault = some .noTerminator ↔ 25 ≤ s.cap ∧ ∀ k, k < s.cap → s.byteAt .pb k ≠ 0x00#8) ∧
    (t.out.fault = some .shortPacket ↔ 25 ≤ s.cap ∧ ∃ l, l < 3 ∧ s.byteAt .pb l = 0x00#8) ∧
    (t.out.fault = some .noFault ↔ 25 ≤ s.cap ∧ (∃ l, l < s.cap ∧ s.byteAt .pb l = 0x00#8) ∧
      ∀ l, l < 3 → s.byteAt .pb l ≠ 0x00#8)
end

