-- ==== Sys2Proof/Laws/State.lean ====
section
/-! SUPPORT. One lemma per field per update of the state, each true by `rfl`, so that no later proof
unfolds a record update. -/

namespace Sys2Proof.Machine

variable (s : State)

@[simp] theorem State.memory_pb : s.memory .pb = s.pb := rfl
@[simp] theorem State.memory_sb : s.memory .sb = s.sb := rfl
@[simp] theorem State.size_pb : s.size .pb = s.cap := rfl
@[simp] theorem State.size_sb : s.size .sb = 512 := rfl

@[simp] theorem State.deliver_cap (o : Outputs) : (s.deliver o).cap = s.cap := rfl
@[simp] theorem State.deliver_pb (o : Outputs) : (s.deliver o).pb = s.pb := rfl
@[simp] theorem State.deliver_sb (o : Outputs) : (s.deliver o).sb = s.sb := rfl
@[simp] theorem State.deliver_out (o : Outputs) : (s.deliver o).out = o := rfl
@[simp] theorem State.deliver_inbox (o : Outputs) : (s.deliver o).inbox = s.inbox := rfl
@[simp] theorem State.deliver_mismatchCount (o : Outputs) : (s.deliver o).mismatchCount = s.mismatchCount := rfl

@[simp] theorem State.raise_cap (f : FaultCode) : (s.raise f).cap = s.cap := rfl
@[simp] theorem State.raise_pb (f : FaultCode) : (s.raise f).pb = s.pb := rfl
@[simp] theorem State.raise_sb (f : FaultCode) : (s.raise f).sb = s.sb := rfl
@[simp] theorem State.raise_out (f : FaultCode) : (s.raise f).out = Outputs.faulted f := rfl
@[simp] theorem State.raise_inbox (f : FaultCode) : (s.raise f).inbox = s.inbox := rfl
@[simp] theorem State.raise_mismatchCount (f : FaultCode) : (s.raise f).mismatchCount = s.mismatchCount := rfl

@[simp] theorem State.writeBytes_pb_cap (a : Nat) (bs : List Byte) : (s.writeBytes .pb a bs).cap = s.cap := rfl
@[simp] theorem State.writeBytes_pb_pb (a : Nat) (bs : List Byte) : (s.writeBytes .pb a bs).pb = Memory.store s.pb a bs := rfl
@[simp] theorem State.writeBytes_pb_sb (a : Nat) (bs : List Byte) : (s.writeBytes .pb a bs).sb = s.sb := rfl
@[simp] theorem State.writeBytes_pb_out (a : Nat) (bs : List Byte) : (s.writeBytes .pb a bs).out = s.out := rfl
@[simp] theorem State.writeBytes_pb_inbox (a : Nat) (bs : List Byte) : (s.writeBytes .pb a bs).inbox = s.inbox := rfl
@[simp] theorem State.writeBytes_pb_mismatchCount (a : Nat) (bs : List Byte) : (s.writeBytes .pb a bs).mismatchCount = s.mismatchCount := rfl

@[simp] theorem State.writeBytes_sb_cap (a : Nat) (bs : List Byte) : (s.writeBytes .sb a bs).cap = s.cap := rfl
@[simp] theorem State.writeBytes_sb_pb (a : Nat) (bs : List Byte) : (s.writeBytes .sb a bs).pb = s.pb := rfl
@[simp] theorem State.writeBytes_sb_sb (a : Nat) (bs : List Byte) : (s.writeBytes .sb a bs).sb = Memory.store s.sb a bs := rfl
@[simp] theorem State.writeBytes_sb_out (a : Nat) (bs : List Byte) : (s.writeBytes .sb a bs).out = s.out := rfl
@[simp] theorem State.writeBytes_sb_inbox (a : Nat) (bs : List Byte) : (s.writeBytes .sb a bs).inbox = s.inbox := rfl
@[simp] theorem State.writeBytes_sb_mismatchCount (a : Nat) (bs : List Byte) : (s.writeBytes .sb a bs).mismatchCount = s.mismatchCount := rfl

@[simp] theorem State.emitPacket_cap (p : List Byte) : (s.emitPacket p).cap = s.cap := rfl
@[simp] theorem State.emitPacket_pb (p : List Byte) : (s.emitPacket p).pb = Memory.store s.pb 0 p := rfl
@[simp] theorem State.emitPacket_sb (p : List Byte) : (s.emitPacket p).sb = s.sb := rfl
@[simp] theorem State.emitPacket_out (p : List Byte) : (s.emitPacket p).out = Outputs.completed := rfl
@[simp] theorem State.emitPacket_inbox (p : List Byte) : (s.emitPacket p).inbox = s.inbox := rfl
@[simp] theorem State.emitPacket_mismatchCount (p : List Byte) : (s.emitPacket p).mismatchCount = s.mismatchCount := rfl

@[simp] theorem State.withFetchWord_cap (n w : Nat) : (s.withFetchWord n w).cap = s.cap := rfl
@[simp] theorem State.withFetchWord_pb (n w : Nat) : (s.withFetchWord n w).pb = s.pb := rfl
@[simp] theorem State.withFetchWord_sb (n w : Nat) : (s.withFetchWord n w).sb = s.sb := rfl
@[simp] theorem State.withFetchWord_out (n w : Nat) : (s.withFetchWord n w).out = s.out := rfl
@[simp] theorem State.withFetchWord_inbox (n w : Nat) : (s.withFetchWord n w).inbox = .request (Request.ofTableWord n w) :: s.inbox := rfl
@[simp] theorem State.withFetchWord_mismatchCount (n w : Nat) : (s.withFetchWord n w).mismatchCount = s.mismatchCount := rfl

@[simp] theorem State.rejectRequest_illegalOp (op : BitVec 4) :
    s.rejectRequest (.illegalOp op) = s.raise .illegalOp := rfl


@[simp] theorem Outputs.absent_chk : Outputs.absent.chk = none := rfl
@[simp] theorem Outputs.absent_w1 : Outputs.absent.w1 = none := rfl
@[simp] theorem Outputs.absent_w2 : Outputs.absent.w2 = none := rfl
@[simp] theorem Outputs.absent_isMatch : Outputs.absent.isMatch = none := rfl
@[simp] theorem Outputs.absent_len : Outputs.absent.len = none := rfl
@[simp] theorem Outputs.absent_result : Outputs.absent.result = none := rfl
@[simp] theorem Outputs.absent_fault : Outputs.absent.fault = none := rfl

@[simp] theorem Outputs.completed_chk : Outputs.completed.chk = none := rfl
@[simp] theorem Outputs.completed_w1 : Outputs.completed.w1 = none := rfl
@[simp] theorem Outputs.completed_w2 : Outputs.completed.w2 = none := rfl
@[simp] theorem Outputs.completed_isMatch : Outputs.completed.isMatch = none := rfl
@[simp] theorem Outputs.completed_len : Outputs.completed.len = none := rfl
@[simp] theorem Outputs.completed_result : Outputs.completed.result = none := rfl
@[simp] theorem Outputs.completed_fault : Outputs.completed.fault = some .noFault := rfl

@[simp] theorem Outputs.faulted_chk (f : FaultCode) : (Outputs.faulted f).chk = none := rfl
@[simp] theorem Outputs.faulted_w1 (f : FaultCode) : (Outputs.faulted f).w1 = none := rfl
@[simp] theorem Outputs.faulted_w2 (f : FaultCode) : (Outputs.faulted f).w2 = none := rfl
@[simp] theorem Outputs.faulted_isMatch (f : FaultCode) : (Outputs.faulted f).isMatch = none := rfl
@[simp] theorem Outputs.faulted_len (f : FaultCode) : (Outputs.faulted f).len = none := rfl
@[simp] theorem Outputs.faulted_result (f : FaultCode) : (Outputs.faulted f).result = none := rfl
@[simp] theorem Outputs.faulted_fault (f : FaultCode) : (Outputs.faulted f).fault = some f := rfl

@[simp] theorem State.countMismatch_cap : (s.countMismatch).cap = s.cap := rfl
@[simp] theorem State.countMismatch_pb : (s.countMismatch).pb = s.pb := rfl
@[simp] theorem State.countMismatch_sb : (s.countMismatch).sb = s.sb := rfl
@[simp] theorem State.countMismatch_out : (s.countMismatch).out = s.out := rfl
@[simp] theorem State.countMismatch_inbox : (s.countMismatch).inbox = s.inbox := rfl
@[simp] theorem State.countMismatch_mismatchCount : (s.countMismatch).mismatchCount = s.mismatchCount + 1 := rfl

@[simp] theorem State.keepSector_cap : (s.keepSector).cap = s.cap := rfl
@[simp] theorem State.keepSector_pb : (s.keepSector).pb = s.pb := rfl
@[simp] theorem State.keepSector_sb : (s.keepSector).sb = Memory.store s.sb 0 (decodedSector s) := rfl
@[simp] theorem State.keepSector_out : (s.keepSector).out = Outputs.ofResult 0x00#8 := rfl
@[simp] theorem State.keepSector_inbox : (s.keepSector).inbox = s.inbox := rfl
@[simp] theorem State.keepSector_mismatchCount : (s.keepSector).mismatchCount = s.mismatchCount := rfl

@[simp] theorem State.loseSector_cap : (s.loseSector).cap = s.cap := rfl
@[simp] theorem State.loseSector_pb : (s.loseSector).pb = s.pb := rfl
@[simp] theorem State.loseSector_sb : (s.loseSector).sb = Memory.store s.sb 0 s.mismatchedSector := rfl
@[simp] theorem State.loseSector_out : (s.loseSector).out = Outputs.ofResult 0x06#8 := rfl
@[simp] theorem State.loseSector_inbox : (s.loseSector).inbox = s.inbox := rfl
@[simp] theorem State.loseSector_mismatchCount : (s.loseSector).mismatchCount = s.mismatchCount + 1 := rfl

@[simp] theorem Outputs.ofChk_chk (v : Byte) : (Outputs.ofChk v).chk = some v := rfl
@[simp] theorem Outputs.ofChk_w1 (v : Byte) : (Outputs.ofChk v).w1 = none := rfl
@[simp] theorem Outputs.ofChk_w2 (v : Byte) : (Outputs.ofChk v).w2 = none := rfl
@[simp] theorem Outputs.ofChk_isMatch (v : Byte) : (Outputs.ofChk v).isMatch = none := rfl
@[simp] theorem Outputs.ofChk_len (v : Byte) : (Outputs.ofChk v).len = none := rfl
@[simp] theorem Outputs.ofChk_result (v : Byte) : (Outputs.ofChk v).result = none := rfl
@[simp] theorem Outputs.ofChk_fault (v : Byte) : (Outputs.ofChk v).fault = some .noFault := rfl

@[simp] theorem Outputs.ofPair_chk (v w : Byte) : (Outputs.ofPair v w).chk = none := rfl
@[simp] theorem Outputs.ofPair_w1 (v w : Byte) : (Outputs.ofPair v w).w1 = some v := rfl
@[simp] theorem Outputs.ofPair_w2 (v w : Byte) : (Outputs.ofPair v w).w2 = some w := rfl
@[simp] theorem Outputs.ofPair_isMatch (v w : Byte) : (Outputs.ofPair v w).isMatch = none := rfl
@[simp] theorem Outputs.ofPair_len (v w : Byte) : (Outputs.ofPair v w).len = none := rfl
@[simp] theorem Outputs.ofPair_result (v w : Byte) : (Outputs.ofPair v w).result = none := rfl
@[simp] theorem Outputs.ofPair_fault (v w : Byte) : (Outputs.ofPair v w).fault = some .noFault := rfl

@[simp] theorem Outputs.ofMatch_chk (b : Bool) : (Outputs.ofMatch b).chk = none := rfl
@[simp] theorem Outputs.ofMatch_w1 (b : Bool) : (Outputs.ofMatch b).w1 = none := rfl
@[simp] theorem Outputs.ofMatch_w2 (b : Bool) : (Outputs.ofMatch b).w2 = none := rfl
@[simp] theorem Outputs.ofMatch_isMatch (b : Bool) : (Outputs.ofMatch b).isMatch = some b := rfl
@[simp] theorem Outputs.ofMatch_len (b : Bool) : (Outputs.ofMatch b).len = none := rfl
@[simp] theorem Outputs.ofMatch_result (b : Bool) : (Outputs.ofMatch b).result = none := rfl
@[simp] theorem Outputs.ofMatch_fault (b : Bool) : (Outputs.ofMatch b).fault = some .noFault := rfl

@[simp] theorem Outputs.ofLen_chk (n : Nat) : (Outputs.ofLen n).chk = none := rfl
@[simp] theorem Outputs.ofLen_w1 (n : Nat) : (Outputs.ofLen n).w1 = none := rfl
@[simp] theorem Outputs.ofLen_w2 (n : Nat) : (Outputs.ofLen n).w2 = none := rfl
@[simp] theorem Outputs.ofLen_isMatch (n : Nat) : (Outputs.ofLen n).isMatch = none := rfl
@[simp] theorem Outputs.ofLen_len (n : Nat) : (Outputs.ofLen n).len = some n := rfl
@[simp] theorem Outputs.ofLen_result (n : Nat) : (Outputs.ofLen n).result = none := rfl
@[simp] theorem Outputs.ofLen_fault (n : Nat) : (Outputs.ofLen n).fault = some .noFault := rfl

@[simp] theorem Outputs.ofResult_chk (r : Byte) : (Outputs.ofResult r).chk = none := rfl
@[simp] theorem Outputs.ofResult_w1 (r : Byte) : (Outputs.ofResult r).w1 = none := rfl
@[simp] theorem Outputs.ofResult_w2 (r : Byte) : (Outputs.ofResult r).w2 = none := rfl
@[simp] theorem Outputs.ofResult_isMatch (r : Byte) : (Outputs.ofResult r).isMatch = none := rfl
@[simp] theorem Outputs.ofResult_len (r : Byte) : (Outputs.ofResult r).len = none := rfl
@[simp] theorem Outputs.ofResult_result (r : Byte) : (Outputs.ofResult r).result = some r := rfl
@[simp] theorem Outputs.ofResult_fault (r : Byte) : (Outputs.ofResult r).fault = some .noFault := rfl

end Sys2Proof.Machine
end

