-- ==== Sys2Proof/Laws/Memory.lean ====
section
/-! SUPPORT. What reading, writing and the canonical form of a memory do. -/

namespace Sys2Proof.Machine

@[simp] theorem Memory.peek_nil (k : Nat) : Memory.peek [] k = none := rfl

theorem Memory.peek_append (m n : Memory) (k : Nat) :
    Memory.peek (m ++ n) k = (Memory.peek m k).or (Memory.peek n k) := by
  induction m with
  | nil => simp
  | cons cell rest ih =>
    by_cases h : cell.1 = k
    · simp [Memory.peek, h]
    · simp [Memory.peek, h, ih]

/-- A filter on offsets hides the offsets it drops and no other. -/
theorem Memory.peek_filter (m : Memory) (p : Nat → Bool) (k : Nat) :
    Memory.peek (m.filter fun cell => p cell.1) k = if p k then Memory.peek m k else none := by
  induction m with
  | nil => simp
  | cons cell rest ih =>
    obtain ⟨a, b⟩ := cell
    by_cases ha : a = k
    · subst ha
      cases hp : p a <;> simp_all [Memory.peek]
    · cases hp : p a <;> simp_all [Memory.peek]

theorem Memory.peek_cellsAt (bs : List Byte) (a k : Nat) :
    Memory.peek (Memory.cellsAt a bs) k = if a ≤ k then bs[k - a]? else none := by
  induction bs generalizing a with
  | nil => simp [Memory.cellsAt]
  | cons b bs ih =>
    rw [Memory.cellsAt, Memory.peek, ih]
    by_cases h : a = k
    · simp [h]
    · by_cases h' : a < k
      · have e : k - a = (k - (a + 1)) + 1 := by omega
        simp [h, h'.le, Nat.succ_le_of_lt h', e]
      · have h1 : ¬ a ≤ k := by omega
        have h2 : ¬ a + 1 ≤ k := by omega
        simp [h, h1, h2]

/-- Reading after a write: the written byte inside, the old byte outside (R30). No canonical form is
needed. -/
theorem Memory.peek_store (m : Memory) (a : Nat) (bs : List Byte) (k : Nat) :
    Memory.peek (Memory.store m a bs) k =
      if a ≤ k ∧ k < a + bs.length then bs[k - a]? else Memory.peek m k := by
  unfold Memory.store
  rw [Memory.peek_append, Memory.peek_append,
    Memory.peek_filter m (fun x => decide (x < a)),
    Memory.peek_filter m (fun x => decide (a + bs.length ≤ x)), Memory.peek_cellsAt]
  by_cases h1 : k < a
  · have h2 : ¬ a ≤ k := by omega
    have h3 : ¬ a + bs.length ≤ k := by omega
    simp [h1, h2, h3]
  · have h2 : a ≤ k := by omega
    by_cases h3 : k < a + bs.length
    · have h4 : k - a < bs.length := by omega
      have h5 : ¬ a + bs.length ≤ k := by omega
      simp [h1, h2, h3, h5, h4]
    · have h4 : bs.length ≤ k - a := by omega
      have h5 : a + bs.length ≤ k := by omega
      simp [h1, h2, h3, h5, List.getElem?_eq_none h4]

theorem Memory.mem_cellsAt {bs : List Byte} {a : Nat} {cell : Host.Cell} (h : cell ∈ Memory.cellsAt a bs) :
    a ≤ cell.1 ∧ cell.1 < a + bs.length := by
  induction bs generalizing a with
  | nil => simp [Memory.cellsAt] at h
  | cons b bs ih =>
    rcases List.mem_cons.mp h with rfl | h
    · simp
    · have := ih h
      simp only [List.length_cons]
      omega

theorem Memory.cellsAt_wf (bs : List Byte) (a : Nat) : Memory.wf (Memory.cellsAt a bs) := by
  induction bs generalizing a with
  | nil => simp [Memory.wf, Memory.cellsAt]
  | cons b bs ih =>
    simp only [Memory.wf, Memory.cellsAt, List.map_cons, List.pairwise_cons]
    refine ⟨fun x hx => ?_, ih (a + 1)⟩
    obtain ⟨cell, hc, rfl⟩ := List.mem_map.mp hx
    have := Memory.mem_cellsAt hc
    omega

/-- Every memory operation keeps the canonical form: writing is the only one that makes a memory. -/
theorem Memory.store_wf {m : Memory} (h : Memory.wf m) (a : Nat) (bs : List Byte) :
    Memory.wf (Memory.store m a bs) := by
  unfold Memory.store Memory.wf
  have sub : ∀ p : Host.Cell → Bool, ((m.filter p).map Prod.fst).Pairwise (· < ·) := fun p =>
    h.sublist (List.filter_sublist.map _)
  rw [List.map_append, List.map_append, List.pairwise_append, List.pairwise_append]
  refine ⟨sub _, ⟨Memory.cellsAt_wf bs a, sub _, ?_⟩, ?_⟩
  · intro x hx y hy
    obtain ⟨c, hc, rfl⟩ := List.mem_map.mp hx
    obtain ⟨d, hd, rfl⟩ := List.mem_map.mp hy
    have h1 := Memory.mem_cellsAt hc
    have h2 : a + bs.length ≤ d.1 := by simpa using (List.mem_filter.mp hd).2
    omega
  · intro x hx y hy
    obtain ⟨c, hc, rfl⟩ := List.mem_map.mp hx
    have h1 : c.1 < a := by simpa using (List.mem_filter.mp hc).2
    rcases List.mem_append.mp hy with hy | hy
    · obtain ⟨d, hd, rfl⟩ := List.mem_map.mp hy
      have := Memory.mem_cellsAt hd
      omega
    · obtain ⟨d, hd, rfl⟩ := List.mem_map.mp hy
      have h2 : a + bs.length ≤ d.1 := by simpa using (List.mem_filter.mp hd).2
      omega

theorem Memory.store_within {size : Nat} {m : Memory} (h : Memory.within size m) {a : Nat} {bs : List Byte}
    (hb : bs = [] ∨ a + bs.length ≤ size) : Memory.within size (Memory.store m a bs) := by
  intro cell hc
  unfold Memory.store at hc
  rcases List.mem_append.mp hc with hc | hc
  · exact h cell (List.mem_filter.mp hc).1
  · rcases List.mem_append.mp hc with hc | hc
    · have h1 := Memory.mem_cellsAt hc
      rcases hb with rfl | hb
      · simp [Memory.cellsAt] at hc
      · omega
    · exact h cell (List.mem_filter.mp hc).1

/-- Writing the same bytes again changes nothing, as data. -/
theorem Memory.store_store (m : Memory) (a : Nat) (bs : List Byte) :
    Memory.store (Memory.store m a bs) a bs = Memory.store m a bs := by
  have none_below : (Memory.cellsAt a bs).filter (fun cell => decide (cell.1 < a)) = [] :=
    List.filter_eq_nil_iff.mpr fun cell hc => by
      have := Memory.mem_cellsAt hc
      simpa using this.1
  have none_above : (Memory.cellsAt a bs).filter (fun cell => decide (a + bs.length ≤ cell.1)) = [] :=
    List.filter_eq_nil_iff.mpr fun cell hc => by
      have := Memory.mem_cellsAt hc
      simpa using this.2
  unfold Memory.store
  simp only [List.filter_append, List.filter_filter, none_below, none_above, List.nil_append]
  have e1 : m.filter (fun cell => decide (cell.1 < a) && decide (cell.1 < a)) =
      m.filter (fun cell => decide (cell.1 < a)) := by simp
  have e2 : m.filter (fun cell => decide (cell.1 < a) && decide (a + bs.length ≤ cell.1)) = [] :=
    List.filter_eq_nil_iff.mpr fun cell _ => by simp; omega
  have e3 : m.filter (fun cell => decide (a + bs.length ≤ cell.1) && decide (cell.1 < a)) = [] :=
    List.filter_eq_nil_iff.mpr fun cell _ => by simp; omega
  have e4 : m.filter (fun cell => decide (a + bs.length ≤ cell.1) && decide (a + bs.length ≤ cell.1)) =
      m.filter (fun cell => decide (a + bs.length ≤ cell.1)) := by simp
  rw [e1, e2, e3, e4]
  simp

/-- The byte at an offset depends on its memory alone. -/
theorem State.byteAt_congr {s t : State} {m : MemId} (h : s.memory m = t.memory m) (k : Nat) :
    s.byteAt m k = t.byteAt m k := by
  unfold State.byteAt
  rw [h]

@[simp] theorem State.byteAt_deliver (s : State) (o : Outputs) (m : MemId) (k : Nat) :
    (s.deliver o).byteAt m k = s.byteAt m k := by cases m <;> rfl

@[simp] theorem State.byteAt_raise (s : State) (f : FaultCode) (m : MemId) (k : Nat) :
    (s.raise f).byteAt m k = s.byteAt m k := by cases m <;> rfl

/-- Reading a byte after `writeBytes` (R30): inside the written bytes of the memory written, the byte
written; everywhere else, the byte before. -/
theorem State.byteAt_writeBytes (s : State) (m m' : MemId) (a : Nat) (bs : List Byte) (k : Nat) :
    (s.writeBytes m a bs).byteAt m' k =
      if m' = m ∧ a ≤ k ∧ k < a + bs.length then bs.getD (k - a) 0x00#8 else s.byteAt m' k := by
  have inside : ∀ (n : Memory) (d : Byte), (Memory.peek (Memory.store n a bs) k).getD d =
      if a ≤ k ∧ k < a + bs.length then bs.getD (k - a) 0x00#8 else (Memory.peek n k).getD d := by
    intro n d
    rw [Memory.peek_store]
    split
    · have hl : k - a < bs.length := by omega
      simp [hl]
    · rfl
  cases m <;> cases m' <;> simp [State.byteAt, inside]

/-- Reading PB after a packet was emitted: the packet's bytes, then what was there before (R38). -/
theorem State.byteAt_emitPacket_pb (s : State) (p : List Byte) (k : Nat) :
    (s.emitPacket p).byteAt .pb k = if k < p.length then p.getD k 0x00#8 else s.byteAt .pb k := by
  simp [State.emitPacket, State.byteAt_writeBytes]

@[simp] theorem State.byteAt_emitPacket_sb (s : State) (p : List Byte) (k : Nat) :
    (s.emitPacket p).byteAt .sb k = s.byteAt .sb k := by
  simp [State.emitPacket, State.byteAt_writeBytes]

/-- A byte of an emitted packet stands at its offset in PB. -/
theorem State.byteAt_emitPacket_of_getElem? {s : State} {p : List Byte} {k : Nat} {b : Byte}
    (h : p[k]? = some b) : (s.emitPacket p).byteAt .pb k = b := by
  have hk : k < p.length := by
    by_contra hc
    rw [List.getElem?_eq_none (by omega)] at h
    cases h
  rw [State.byteAt_emitPacket_pb, if_pos hk, List.getD_eq_getElem?_getD, h]
  rfl

end Sys2Proof.Machine
end

