-- ==== Sys2Proof/Laws/Wire.lean ====
section
/-! SUPPORT. The pure functions of R11: their lengths, and how XOR, packing and the checksum pair
compose. -/

namespace Sys2Proof.Machine

/-! ### XOR -/

theorem foldl_xor (bs : List Byte) (x : Byte) : bs.foldl (· ^^^ ·) x = x ^^^ xorBytes bs := by
  unfold xorBytes
  induction bs generalizing x with
  | nil => simp
  | cons b bs ih =>
    rw [List.foldl_cons, List.foldl_cons, ih (x ^^^ b), ih (0x00#8 ^^^ b)]
    simp [BitVec.xor_assoc]

@[simp] theorem xorBytes_nil : xorBytes [] = 0x00#8 := rfl

@[simp] theorem xorBytes_cons (b : Byte) (bs : List Byte) : xorBytes (b :: bs) = b ^^^ xorBytes bs := by
  show bs.foldl (· ^^^ ·) (0x00#8 ^^^ b) = _
  rw [foldl_xor]
  simp

@[simp] theorem xorBytes_append (as bs : List Byte) : xorBytes (as ++ bs) = xorBytes as ^^^ xorBytes bs := by
  induction as with
  | nil => simp
  | cons a as ih => simp [ih, BitVec.xor_assoc]

theorem xorBytes_perm {as bs : List Byte} (h : as.Perm bs) : xorBytes as = xorBytes bs := by
  induction h with
  | nil => rfl
  | cons x _ ih => simp [ih]
  | swap x y l => simp [← BitVec.xor_assoc, BitVec.xor_comm y x]
  | trans _ _ ih1 ih2 => exact ih1.trans ih2

/-! ### The checksum pair -/

@[simp] theorem csumUnpair_csumPair (c : Byte) : csumUnpair (csumPair c).1 (csumPair c).2 = c := by
  revert c
  decide +kernel

/-! ### Lengths -/

@[simp] theorem header_length (src type stat : Byte) (odd grp : Nat) :
    (header src type stat odd grp).length = 14 := rfl

@[simp] theorem trailer_length (c : Byte) : (trailer c).length = 4 := rfl

theorem packSection_length (bs : List Byte) :
    (packSection bs).length = if bs = [] then 0 else bs.length + 1 := by
  cases bs <;> simp [packSection]

@[simp] theorem bytesFrom_length (read : Nat → Byte) (a b : Nat) :
    (bytesFrom read a b).length = b + 1 - a := by simp [bytesFrom]

@[simp] theorem unpackSection_length (read : Nat → Byte) (base n : Nat) :
    (unpackSection read base n).length = n := by simp [unpackSection]

@[simp] theorem unpackPayload_length (read : Nat → Byte) (odd grp : Nat) :
    (unpackPayload read odd grp).length = odd + 7 * grp := by
  simp [unpackPayload, List.length_flatMap, Nat.mul_comm]

@[simp] theorem sectorGroups_length (read : Nat → Byte) : (sectorGroups read).length = 73 := by
  simp [sectorGroups, sectorGroupCount]

@[simp] theorem statusPacket_length (src : Byte) : (statusPacket src).length = 23 := rfl

@[simp] theorem statusDibPacket_length (src : Byte) : (statusDibPacket src).length = 47 := rfl

@[simp] theorem ackPacket_length (type src stat : Byte) : (ackPacket type src stat).length = 18 := rfl

/-- 586 wire bytes for a sector (R84). -/
theorem sectorPayload_length (read : Nat → Byte) :
    (packPayload [read 0] (sectorGroups read)).length = 586 := by
  have group : ∀ f : Nat → Byte, (packSection ((List.range 7).map f)).length = 8 := fun f => by
    simp [packSection_length]
  have odd : (packSection [read 0]).length = 2 := rfl
  rw [packPayload, List.length_append, odd, sectorGroups, List.flatMap_map, List.length_flatMap]
  simp only [group]
  simp [sectorGroupCount]

@[simp] theorem sectorPacket_length (src : Byte) (read : Nat → Byte) :
    (sectorPacket src read).length = 604 := by
  simp [sectorPacket, sectorPayload_length]

@[simp] theorem decodedSector_length (s : State) : (decodedSector s).length = 512 := by
  simp [decodedSector]

@[simp] theorem mismatchedSector_length (s : State) : s.mismatchedSector.length = 512 := by
  simp [State.mismatchedSector, sectorSize]

/-! ### Indexing the sections of a list of equal pieces -/

/-- Byte `j` of piece `g` of pieces of `n` bytes each. -/
theorem getElem?_flatMap_range {α : Type} (f : Nat → List α) (n count g j : Nat)
    (hf : ∀ g, (f g).length = n) (hg : g < count) (hj : j < n) :
    ((List.range count).flatMap f)[n * g + j]? = (f g)[j]? := by
  induction count with
  | zero => omega
  | succ count ih =>
    have hl : ((List.range count).flatMap f).length = n * count := by
      simp [List.length_flatMap, hf, Nat.mul_comm]
    rw [List.range_succ, List.flatMap_append]
    by_cases h : g < count
    · have h1 : n * g + j < n * count := by
        have : n * (g + 1) ≤ n * count := Nat.mul_le_mul_left n h
        rw [Nat.mul_succ] at this
        omega
      rw [List.getElem?_append_left (by omega), ih h]
    · have e : g = count := by omega
      subst e
      rw [List.getElem?_append_right (by omega), hl]
      simp

/-- Byte `j` of a group's section, at wire offset 8g + j after the odd section (R84). -/
theorem sectorPayload_getElem? (read : Nat → Byte) (g j : Nat) (hg : g < 73) (hj : j < 8) :
    (packPayload [read 0] (sectorGroups read))[2 + 8 * g + j]? =
      (packSection ((List.range 7).map fun i => read (1 + 7 * g + i)))[j]? := by
  have odd : (packSection [read 0]).length = 2 := rfl
  rw [packPayload, sectorGroups, List.flatMap_map, List.getElem?_append_right (by rw [odd]; omega), odd]
  have e : 2 + 8 * g + j - 2 = 8 * g + j := by omega
  rw [e]
  exact getElem?_flatMap_range (fun g => packSection ((List.range 7).map fun i => read (1 + 7 * g + i)))
    8 73 g j (by intro g; simp [packSection_length]) hg hj

/-- The sector packet below offset 14 is its header (R46, R55). -/
theorem sectorPacket_getElem?_header (src : Byte) (read : Nat → Byte) (k : Nat) (hk : k < 14) :
    (sectorPacket src read)[k]? = (header src typeData statFixed 1 73)[k]? := by
  unfold sectorPacket
  simp only []
  rw [List.append_assoc, List.getElem?_append_left (by simpa using hk)]

/-- The sector packet from offset 14 to 599 is its payload (R55, R84). -/
theorem sectorPacket_getElem?_payload (src : Byte) (read : Nat → Byte) (k : Nat) (hk : k < 586) :
    (sectorPacket src read)[14 + k]? = (packPayload [read 0] (sectorGroups read))[k]? := by
  unfold sectorPacket
  simp only []
  rw [List.getElem?_append_left (by simp [sectorPayload_length]; omega),
    List.getElem?_append_right (by simp)]
  simp

/-- The sector packet from offset 600 on is its trailer (R54, R55). -/
theorem sectorPacket_getElem?_trailer (src : Byte) (read : Nat → Byte) (k : Nat) :
    (sectorPacket src read)[600 + k]? =
      (trailer (xorRange read 0 511 ^^^ headerXor (header src typeData statFixed 1 73)))[k]? := by
  unfold sectorPacket
  simp only []
  rw [List.getElem?_append_right (by simp [sectorPayload_length])]
  simp [sectorPayload_length]

/-- An odd byte of an unpacked payload. -/
theorem unpackPayload_getElem?_odd (read : Nat → Byte) (odd grp i : Nat) (hi : i < odd) :
    (unpackPayload read odd grp)[i]? = some (unpack (read 14) i (read (15 + i))) := by
  unfold unpackPayload
  rw [List.getElem?_append_left (by simpa using hi)]
  simp [unpackSection, hi]

/-- Byte `i` of group `g` of an unpacked payload. -/
theorem unpackPayload_getElem?_group (read : Nat → Byte) (odd grp g i : Nat) (hg : g < grp) (hi : i < 7) :
    (unpackPayload read odd grp)[odd + 7 * g + i]? =
      some (unpack (read (15 + odd + 8 * g)) i (read (16 + odd + 8 * g + i))) := by
  unfold unpackPayload
  rw [List.getElem?_append_right (by simp; omega)]
  have e : odd + 7 * g + i - (unpackSection read 14 odd).length = 7 * g + i := by simp; omega
  rw [e, getElem?_flatMap_range (fun g => unpackSection read (15 + odd + 8 * g) 7) 7 grp g i (by simp) hg hi]
  have e' : 15 + odd + 8 * g + 1 + i = 16 + odd + 8 * g + i := by omega
  simp [unpackSection, hi, e']

end Sys2Proof.Machine
end

