-- ==== Sys2Proof/Laws/Machine.lean ====
section
/-! SUPPORT. What each shared operation can do, what an operation of the block can do, and what a step
can do, said once; later proofs cite these instead of unfolding. -/

namespace Sys2Proof.Machine

/-- `ifCapacity` either raises CapacityFault or is the completed state. -/
theorem State.ifCapacity_cases (s : State) (need : Nat) (done : State) :
    (s.cap < need ∧ s.ifCapacity need done = s.raise .capacityFault) ∨
      (need ≤ s.cap ∧ s.ifCapacity need done = done) := by
  unfold State.ifCapacity
  split
  · exact .inl ⟨‹_›, rfl⟩
  · exact .inr ⟨by omega, rfl⟩

theorem State.ifCapacity_of_le {s : State} {need : Nat} (done : State) (h : need ≤ s.cap) :
    s.ifCapacity need done = done := if_neg (by omega)

theorem State.ifCapacity_of_lt {s : State} {need : Nat} (done : State) (h : s.cap < need) :
    s.ifCapacity need done = s.raise .capacityFault := if_pos h

/-- A write of the requester lands, inside its memory, or stops the model. -/
theorem State.requesterWrite_cases (s : State) (m : MemId) (a : Nat) (bs : List Byte) :
    ((bs = [] ∨ a + bs.length ≤ s.size m) ∧ s.requesterWrite m a bs = .next (s.writeBytes m a bs)) ∨
      (¬ (bs = [] ∨ a + bs.length ≤ s.size m) ∧ s.requesterWrite m a bs = .fault .requesterOutOfRange) := by
  unfold State.requesterWrite
  split
  · exact .inl ⟨‹_›, rfl⟩
  · exact .inr ⟨‹_›, rfl⟩

/-- A range raises no fault exactly when it is empty or ends inside its memory. -/
theorem State.rangeInside_iff (s : State) (r : ByteRange) :
    s.rangeInside r = true ↔ (r.first ≤ r.last → r.last < s.size r.mem) := by
  simp only [State.rangeInside, Bool.or_eq_true, decide_eq_true_eq]
  omega

/-- first_zero finds a zero byte and no earlier one, or there is none. -/
theorem firstZero_cases (cap : Nat) (read : Nat → Byte) :
    (firstZero cap read = none ∧ ∀ k, k < cap → read k ≠ 0x00#8) ∨
      ∃ k, firstZero cap read = some k ∧ k < cap ∧ read k = 0x00#8 ∧ ∀ j, j < k → read j ≠ 0x00#8 := by
  unfold firstZero terminator
  cases h : (List.range cap).find? (fun k => read k == 0x00#8) with
  | none => exact .inl ⟨rfl, fun k hk => by simpa using List.find?_eq_none.mp h k (List.mem_range.mpr hk)⟩
  | some k =>
    obtain ⟨hp, hk, hlt⟩ := List.find?_range_eq_some.mp h
    exact .inr ⟨k, rfl, List.mem_range.mp hk, by simpa using hp, fun j hj => by simpa using hlt j hj⟩

/-- What the packet of an encoding operation is, and the capacity it needs; none for the others. -/
def packetOf (i : Instr) (s : State) : Option (Nat × List Byte) :=
  match i with
  | .buildStatus src => some (23, statusPacket src)
  | .buildStatusDib src => some (47, statusDibPacket src)
  | .buildWriteAck src stat => some (18, ackPacket typeStatus src stat)
  | .buildInitAck src stat => some (18, ackPacket typeInitAck src stat)
  | .sectorEncode src => some (604, sectorPacket src (s.byteAt .sb))
  | _ => none

/-- What an operation can do: raise a fault; deliver outputs and change no memory; emit a packet that fits;
or, for SECTOR_DECODE, write the 512 bytes of SB and deliver RESULT. -/
theorem exec_cases {i : Instr} {s t : State} (h : exec i s = .next t) :
    (∃ f, f ≠ .noFault ∧ t = s.raise f) ∨
    (packetOf i s = none ∧ i ≠ .sectorDecode ∧ ∃ o, o.fault = some .noFault ∧ t = s.deliver o) ∨
    (∃ need p, packetOf i s = some (need, p) ∧ p.length = need ∧ need ≤ s.cap ∧ t = s.emitPacket p) ∨
    (i = .sectorDecode ∧ 602 ≤ s.cap ∧ sectorAgrees s = true ∧ t = s.keepSector) ∨
    (i = .sectorDecode ∧ 602 ≤ s.cap ∧ sectorAgrees s = false ∧ t = s.loseSector) := by
  have emit : ∀ (need : Nat) (p : List Byte), packetOf i s = some (need, p) → p.length = need →
      Host.Outcome.next (s.ifCapacity need (s.emitPacket p)) = (.next t : Host.Outcome State Fault Refusal) →
      (∃ f, f ≠ .noFault ∧ t = s.raise f) ∨
      (∃ need p, packetOf i s = some (need, p) ∧ p.length = need ∧ need ≤ s.cap ∧ t = s.emitPacket p) := by
    intro need p hp hl he
    injection he with he
    rcases s.ifCapacity_cases need (s.emitPacket p) with ⟨_, e⟩ | ⟨hc, e⟩
    · exact .inl ⟨.capacityFault, by decide, by rw [← he, e]⟩
    · exact .inr ⟨need, p, hp, hl, hc, by rw [← he, e]⟩
  have both : ∀ {a b c d e : Prop}, a ∨ c → a ∨ b ∨ c ∨ d ∨ e := by tauto
  cases i with
  | csumCompute ranges =>
    injection h with h
    subst h
    split
    · exact .inr (.inl ⟨rfl, by simp, _, rfl, rfl⟩)
    · exact .inl ⟨.capacityFault, by decide, rfl⟩
  | csumEncode c => injection h with h; exact .inr (.inl ⟨rfl, by simp, _, rfl, h.symm⟩)
  | csumVerify c w1 w2 => injection h with h; exact .inr (.inl ⟨rfl, by simp, _, rfl, h.symm⟩)
  | pktLength =>
    injection h with h
    subst h
    split
    · exact .inr (.inl ⟨rfl, by simp, _, rfl, rfl⟩)
    · exact .inl ⟨.noTerminator, by decide, rfl⟩
  | buildStatus src => exact both (emit _ _ rfl (by simp) h)
  | buildStatusDib src => exact both (emit _ _ rfl (by simp) h)
  | buildWriteAck src stat => exact both (emit _ _ rfl (by simp) h)
  | buildInitAck src stat => exact both (emit _ _ rfl (by simp) h)
  | sectorEncode src => exact both (emit _ _ rfl (by simp) h)
  | sectorDecode =>
    injection h with h
    subst h
    rcases State.ifCapacity_cases s 602 _ with ⟨_, e⟩ | ⟨hc, e⟩
    · exact .inl ⟨.capacityFault, by decide, e⟩
    · rw [e]
      cases ha : sectorAgrees s
      · exact .inr (.inr (.inr (.inr ⟨rfl, hc, rfl, rfl⟩)))
      · exact .inr (.inr (.inr (.inl ⟨rfl, hc, rfl, rfl⟩)))
  | cmdVerify =>
    injection h with h
    subst h
    rcases State.ifCapacity_cases s 25 _ with ⟨_, e⟩ | ⟨_, e⟩
    · exact .inl ⟨.capacityFault, by decide, e⟩
    · rw [e]
      split
      · exact .inl ⟨.noTerminator, by decide, rfl⟩
      · split
        · exact .inl ⟨.shortPacket, by decide, rfl⟩
        · exact .inr (.inl ⟨rfl, by simp, _, rfl, rfl⟩)

/-- What a step can do: wait; take a write of the requester; run a decoded request; or raise IllegalOp. -/
theorem step_cases {s t : State} (h : step s = .next t) :
    (s.inbox = [] ∧ t = s) ∨
    (∃ m a bs rest, s.inbox = .write m a bs :: rest ∧ (bs = [] ∨ a + bs.length ≤ s.size m) ∧
      t = State.writeBytes { s with inbox := rest } m a bs) ∨
    (∃ r rest i, s.inbox = .request r :: rest ∧ decode r = .ok i ∧ exec i { s with inbox := rest } = .next t) ∨
    (∃ r rest e, s.inbox = .request r :: rest ∧ decode r = .error e ∧
      t = State.raise { s with inbox := rest } .illegalOp) := by
  unfold step at h
  split at h
  · injection h with h
    exact .inl ⟨‹_›, h.symm⟩
  · rename_i m a bs rest hi
    rcases State.requesterWrite_cases { s with inbox := rest } m a bs with ⟨hb, e⟩ | ⟨_, e⟩
    · rw [e] at h
      injection h with h
      refine .inr (.inl ⟨m, a, bs, rest, hi, ?_, h.symm⟩)
      cases m <;> exact hb
    · rw [e] at h
      cases h
  · rename_i r rest hi
    split at h
    · exact .inr (.inr (.inl ⟨r, rest, _, hi, ‹_›, h⟩))
    · rename_i e he
      injection h with h
      refine .inr (.inr (.inr ⟨r, rest, e, hi, he, ?_⟩))
      rw [← h]
      cases e
      rfl

end Sys2Proof.Machine
end

