-- ==== Sys2Proof/Laws/PerInstr.lean ====
section
/-! SUPPORT. What holds of every operation as syntax, one lemma per constructor. -/

namespace Sys2Proof.Laws

/-- The request an operation encodes to has a legal select code, and drives with zero every input that
the operation's format does not name (30_encoding.md R42, R43, R44). -/
def QuietInputs.Statement (i : Instr) : Prop :=
  (encode i).legalSelect = true ∧
  ((encode i).op ≠ 0x0#4 → (encode i).ranges = []) ∧
  ((encode i).op ≠ 0x1#4 → (encode i).op ≠ 0x2#4 → (encode i).c = 0x00#8) ∧
  ((encode i).op ≠ 0x2#4 → (encode i).w1 = 0x00#8 ∧ (encode i).w2 = 0x00#8) ∧
  ((encode i).op.toNat < 4 ∨ 8 < (encode i).op.toNat → (encode i).src = 0x00#8) ∧
  ((encode i).op ≠ 0x6#4 → (encode i).op ≠ 0x7#4 → (encode i).stat = 0x00#8)

namespace QuietInputs

theorem csumCompute (ranges : List ByteRange) : Statement (.csumCompute ranges) := by
  simp [Statement, encode, Request.bare, Request.legalSelect]

theorem csumEncode (c : Byte) : Statement (.csumEncode c) := by
  simp [Statement, encode, Request.bare, Request.legalSelect]

theorem csumVerify (c w1 w2 : Byte) : Statement (.csumVerify c w1 w2) := by
  simp [Statement, encode, Request.bare, Request.legalSelect]

theorem pktLength : Statement .pktLength := by
  simp [Statement, encode, Request.bare, Request.legalSelect]

theorem buildStatus (src : Byte) : Statement (.buildStatus src) := by
  simp [Statement, encode, Request.bare, Request.legalSelect]

theorem buildStatusDib (src : Byte) : Statement (.buildStatusDib src) := by
  simp [Statement, encode, Request.bare, Request.legalSelect]

theorem buildWriteAck (src stat : Byte) : Statement (.buildWriteAck src stat) := by
  simp [Statement, encode, Request.bare, Request.legalSelect]

theorem buildInitAck (src stat : Byte) : Statement (.buildInitAck src stat) := by
  simp [Statement, encode, Request.bare, Request.legalSelect]

theorem sectorEncode (src : Byte) : Statement (.sectorEncode src) := by
  simp [Statement, encode, Request.bare, Request.legalSelect]

theorem sectorDecode : Statement .sectorDecode := by
  simp [Statement, encode, Request.bare, Request.legalSelect]

theorem cmdVerify : Statement .cmdVerify := by
  simp [Statement, encode, Request.bare, Request.legalSelect]

end QuietInputs

end Sys2Proof.Laws
end

