-- ==== Sys2Proof/Tests/Slice0.lean ====
section
/-! SUPPORT. Small tests of one step each. Expected values are those of spec/95_test_vectors.md (V<n>)
or of the rule's own example (R<n>); the requests are written out from 30_encoding.md R42, R43. After
them, a witness for the hypotheses of each statement. -/

namespace Sys2Proof.Tests

open Sys2Proof.Machine

/-- An instance of capacity `cap` with the given bytes written from offset 0 of PB and SB. -/
def start (cap : Nat) (pb sb : List Byte) : State :=
  { cap := cap, pb := Memory.cellsAt 0 pb, sb := Memory.cellsAt 0 sb, out := Outputs.absent,
    inbox := [], mismatchCount := 0 }

/-- The next state of an outcome, the given one if there is none. -/
def after (s : State) : Host.Outcome State Fault Refusal → State
  | .next t => t
  | _ => s

/-- Whether an outcome is a next state. -/
def isNext : Host.Outcome State Fault Refusal → Bool
  | .next _ => true
  | _ => false

/-- The state after one operation. -/
def run (i : Instr) (s : State) : State := after s (exec i s)

theorem exec_run (i : Instr) (s : State) : exec i s = .next (run i s) := by cases i <;> rfl

/-- `n` bytes of a memory from offset `a`. -/
def bytes (s : State) (m : MemId) (a n : Nat) : List Byte := (List.range n).map fun k => s.byteAt m (a + k)

/-! ### Decoding, from the table of R42 -/

/-- A request with every input driven with a byte of its own. -/
def full (op : BitVec 4) : Request :=
  { op := op, ranges := [⟨.pb, 7, 13⟩], c := 0x7F#8, w1 := 0xFF#8, w2 := 0xBF#8, src := 0x81#8, stat := 0x86#8 }

theorem test_decode_csumCompute : decode (full 0b0000#4) = .ok (.csumCompute [⟨.pb, 7, 13⟩]) := by rfl
theorem test_decode_csumEncode : decode (full 0b0001#4) = .ok (.csumEncode 0x7F#8) := by rfl
theorem test_decode_csumVerify : decode (full 0b0010#4) = .ok (.csumVerify 0x7F#8 0xFF#8 0xBF#8) := by rfl
theorem test_decode_pktLength : decode (full 0b0011#4) = .ok .pktLength := by rfl
theorem test_decode_buildStatus : decode (full 0b0100#4) = .ok (.buildStatus 0x81#8) := by rfl
theorem test_decode_buildStatusDib : decode (full 0b0101#4) = .ok (.buildStatusDib 0x81#8) := by rfl
theorem test_decode_buildWriteAck : decode (full 0b0110#4) = .ok (.buildWriteAck 0x81#8 0x86#8) := by rfl
theorem test_decode_buildInitAck : decode (full 0b0111#4) = .ok (.buildInitAck 0x81#8 0x86#8) := by rfl
theorem test_decode_sectorEncode : decode (full 0b1000#4) = .ok (.sectorEncode 0x81#8) := by rfl
theorem test_decode_sectorDecode : decode (full 0b1001#4) = .ok .sectorDecode := by rfl
theorem test_decode_cmdVerify : decode (full 0b1010#4) = .ok .cmdVerify := by rfl
theorem test_decode_illegal : decode (full 0b1011#4) = .error (.illegalOp 0b1011#4) := by rfl

theorem test_tableWord_first_and_last : decodeTableWord 8 0 = some (.csumCompute []) ∧
    decodeTableWord 8 10 = some .cmdVerify ∧ decodeTableWord 8 11 = none := by decide

/-- The request of a table word runs as the first operation after reset. -/
theorem test_fetchWord_runs : isNext (step (State.reset.withFetchWord 8 9)) = true ∧
    (State.reset.withFetchWord 8 9).inbox = [.request (Request.bare 0x9#4)] := by decide

/-! ### Well-formedness: an ill-formed term for each check -/

theorem test_wf_refuses_select : (full 0b1011#4).legalSelect = false := by decide
theorem test_wf_refuses_status_src : Instr.wellFormed 608 (.buildStatus 0x01#8) = false := by decide
theorem test_wf_refuses_dib_src : Instr.wellFormed 608 (.buildStatusDib 0x00#8) = false := by decide
theorem test_wf_refuses_write_ack_stat : Instr.wellFormed 608 (.buildWriteAck 0x81#8 0x06#8) = false := by decide
theorem test_wf_refuses_init_ack_src : Instr.wellFormed 608 (.buildInitAck 0x7F#8 0x80#8) = false := by decide
theorem test_wf_refuses_encode_src : Instr.wellFormed 608 (.sectorEncode 0x7F#8) = false := by decide
theorem test_wf_refuses_pb_range : Instr.wellFormed 608 (.csumCompute [⟨.pb, 600, 608⟩]) = false := by decide
theorem test_wf_refuses_sb_range : Instr.wellFormed 608 (.csumCompute [⟨.sb, 0, 512⟩]) = false := by decide
theorem test_wf_accepts_empty_range : Instr.wellFormed 608 (.csumCompute [⟨.sb, 600, 599⟩]) = true := by decide

/-! ### ChecksumCodec -/

/-- V14: the status reply of V24 in PB. -/
def statusReply : List Byte :=
  [0xFF#8, 0x3F#8, 0xCF#8, 0xF3#8, 0xFC#8, 0xFF#8, 0xC3#8, 0x80#8, 0x81#8, 0x81#8, 0x80#8, 0x80#8, 0x84#8,
   0x80#8, 0xF0#8, 0xF8#8, 0xFF#8, 0xFF#8, 0x80#8, 0xFE#8, 0xBE#8, 0xC8#8, 0x00#8]

/-- V14. -/
theorem test_csumCompute_payload_and_header :
    (run (.csumCompute [⟨.pb, 15, 17⟩, ⟨.pb, 7, 13⟩]) (start 608 statusReply [])).out.chk = some 0x7C#8 := by
  decide

/-- V16: the last offset is the capacity; no CHK is delivered. -/
theorem test_csumCompute_capacityFault :
    (run (.csumCompute [⟨.pb, 600, 608⟩]) (start 608 [] [])).out = Outputs.faulted .capacityFault := by decide

/-- V11. -/
theorem test_csumEncode : (run (.csumEncode 0xCB#8) (start 608 [] [])).out.w1 = some 0xEB#8 ∧
    (run (.csumEncode 0xCB#8) (start 608 [] [])).out.w2 = some 0xEF#8 := by decide

/-- V13: a match, and the exchanged pair. -/
theorem test_csumVerify :
    (run (.csumVerify 0x7F#8 0xFF#8 0xBF#8) (start 608 [] [])).out.isMatch = some true ∧
    (run (.csumVerify 0x7F#8 0xBF#8 0xFF#8) (start 608 [] [])).out.isMatch = some false := by decide

/-! ### PacketFramer -/

/-- V17: the first zero counts. -/
theorem test_pktLength_first_zero :
    (run .pktLength (start 608 [0x01#8, 0x00#8, 0x02#8, 0x00#8] [])).out.len = some 1 := by decide +kernel

/-- P4, with a small capacity: no zero byte, no LEN. -/
theorem test_pktLength_noTerminator :
    (run .pktLength (start 3 [0x80#8, 0x80#8, 0x80#8] [])).out = Outputs.faulted .noTerminator := by decide

/-! ### ControlPacketBuilder -/

/-- V24. -/
theorem test_buildStatus : bytes (run (.buildStatus 0x81#8) (start 608 [] [])) .pb 0 23 = statusReply := by
  decide

/-- V2. -/
theorem test_buildStatusDib : bytes (run (.buildStatusDib 0x81#8) (start 608 [] [])) .pb 0 47 =
    [0xFF#8, 0x3F#8, 0xCF#8, 0xF3#8, 0xFC#8, 0xFF#8, 0xC3#8, 0x80#8, 0x81#8, 0x81#8, 0x80#8, 0x80#8, 0x84#8,
     0x83#8, 0xF0#8, 0xF8#8, 0xFF#8, 0xFF#8, 0x80#8, 0x8D#8, 0x53#8, 0x6D#8, 0x80#8, 0x61#8, 0x72#8, 0x74#8,
     0x70#8, 0x6F#8, 0x72#8, 0x74#8] ++
    [0x80#8, 0x20#8, 0x53#8, 0x44#8, 0x20#8, 0x20#8, 0x20#8, 0x20#8, 0x80#8, 0x82#8, 0x80#8, 0x81#8, 0x90#8,
     0xFF#8, 0xBF#8, 0xC8#8, 0x00#8] := by decide +kernel

/-- V21, with a byte above the terminator kept (R38). -/
theorem test_buildWriteAck :
    bytes (run (.buildWriteAck 0x85#8 0xA1#8) (start 608 (List.replicate 19 0xEE#8) [])) .pb 6 13 =
      [0xC3#8, 0x80#8, 0x85#8, 0x81#8, 0x80#8, 0xA1#8, 0x80#8, 0x80#8, 0xAF#8, 0xFA#8, 0xC8#8, 0x00#8, 0xEE#8] := by
  decide

/-- V27: capacity 17 is too small, and PB is unchanged. -/
theorem test_buildWriteAck_capacity :
    run (.buildWriteAck 0x81#8 0x80#8) (start 17 [0x11#8] []) =
      { start 17 [0x11#8] [] with out := Outputs.faulted .capacityFault } := by decide

/-- V23. -/
theorem test_buildInitAck : bytes (run (.buildInitAck 0x81#8 0x86#8) (start 608 [] [])) .pb 6 12 =
    [0xC3#8, 0x80#8, 0x81#8, 0x80#8, 0x80#8, 0x86#8, 0x80#8, 0x80#8, 0xAF#8, 0xEB#8, 0xC8#8, 0x00#8] := by decide

/-! ### SectorCodec -/

/-- V33: groups 18 and 36 of the counting sector. -/
theorem test_sectorEncode_groups :
    ((sectorPacket 0x81#8 (BitVec.ofNat 8)).drop 160).take 8 =
      [0xBF#8, 0xFF#8, 0x80#8, 0x81#8, 0x82#8, 0x83#8, 0x84#8, 0x85#8] ∧
    ((sectorPacket 0x81#8 (BitVec.ofNat 8)).drop 304).take 8 =
      [0xF0#8, 0xFD#8, 0xFE#8, 0xFF#8, 0x80#8, 0x81#8, 0x82#8, 0x83#8] := by decide +kernel

/-- V34, first instance: odd section, mixed group, last group and trailer. -/
theorem test_sectorEncode_mixed :
    let sector : Nat → Byte := fun k => ([0x80#8, 0x80#8, 0x01#8, 0xFF#8, 0x7F#8, 0x00#8, 0xC3#8, 0x55#8] : List Byte).getD k
      (if k = 511 then 0x80#8 else 0x00#8)
    ((sectorPacket 0x81#8 sector).drop 14).take 10 =
      [0xC0#8, 0x80#8, 0xD2#8, 0x80#8, 0x81#8, 0xFF#8, 0xFF#8, 0x80#8, 0xC3#8, 0xD5#8] ∧
    (sectorPacket 0x81#8 sector).drop 592 =
      [0x81#8, 0x80#8, 0x80#8, 0x80#8, 0x80#8, 0x80#8, 0x80#8, 0x80#8, 0xFE#8, 0xAE#8, 0xC8#8, 0x00#8] := by
  decide +kernel

/-- R53, V41: carrier 9D and the group's data bytes give the original bytes back. -/
theorem test_unpack_group :
    unpackSection (fun k => ([0x9D#8, 0x80#8, 0xB4#8, 0x92#8, 0xFF#8, 0x80#8, 0xFF#8, 0xA5#8] : List Byte).getD k 0x00#8) 0 7 =
      [0x00#8, 0x34#8, 0x92#8, 0xFF#8, 0x80#8, 0x7F#8, 0xA5#8] := by decide

/-- P4: every byte of PB is 80. -/
def plainBuffer : State := start 602 (List.replicate 602 0x80#8) []

/-- P4, step 8: RESULT is 6. -/
theorem test_sectorDecode_mismatch : (run .sectorDecode plainBuffer).out = Outputs.ofResult 0x06#8 := by
  decide +kernel

/-! ### CommandChecksumVerifier -/

/-- V41. -/
def commandPacket : List Byte :=
  [0xFF#8, 0x3F#8, 0xCF#8, 0xF3#8, 0xFC#8, 0xFF#8, 0xC3#8, 0x81#8, 0x80#8, 0x80#8, 0x80#8, 0x80#8, 0x82#8,
   0x81#8, 0x80#8, 0x81#8, 0x83#8, 0x9D#8, 0x80#8, 0xB4#8, 0x92#8, 0xFF#8, 0x80#8, 0xFF#8, 0xA5#8, 0xAB#8,
   0xEB#8, 0xC8#8, 0x00#8]

/-- V41 and, with one data bit changed, V42. -/
theorem test_cmdVerify :
    (run .cmdVerify (start 608 commandPacket [])).out.isMatch = some true ∧
    (run .cmdVerify (start 608 (commandPacket.set 19 0xA4#8) [])).out.isMatch = some false := by decide +kernel

/-- V47: CapacityFault comes before NoTerminator; V44: L = 2 is a short packet. -/
theorem test_cmdVerify_faults :
    (run .cmdVerify (start 24 (List.replicate 24 0x80#8) [])).out = Outputs.faulted .capacityFault ∧
    (run .cmdVerify (start 608 [0xFF#8, 0x3F#8, 0x00#8] [])).out = Outputs.faulted .shortPacket := by
  decide +kernel

/-! ### Requests and the requester -/

/-- V46 and the codes of R95. -/
theorem test_illegalOp : (after State.reset (step (State.reset.withFetchWord 8 12))).out = Outputs.faulted .illegalOp ∧
    faultNumber .illegalOp = 1 ∧ faultNumber .shortPacket = 4 := by decide

/-- R45: `.sb 510: 11 22`, and an offset SB does not have. -/
theorem test_requester_write :
    bytes (after (start 608 [] []) (step { start 608 [] [] with inbox := [.write .sb 510 [0x11#8, 0x22#8]] })) .sb 510 2
      = [0x11#8, 0x22#8] ∧
    isNext (step { start 608 [] [] with inbox := [.write .sb 511 [0x11#8, 0x22#8]] }) = false := by decide

/-! ### Witnesses: the hypotheses of each statement can be met -/

/-- DecodeAndEncodeAgree, StepRunsTheDecodedRequest: legal select codes at both ends. -/
theorem witness_legal_select : (full 0x0#4).op.toNat ≤ 10 ∧ (full 0xA#4).op.toNat ≤ 10 ∧
    decode (full 0xA#4) = .ok .cmdVerify ∧ decodeTableWord 8 0xA = some .cmdVerify ∧
    ({ start 608 [] [] with inbox := [.request (full 0xA#4)] } : State).inbox = .request (full 0xA#4) :: [] :=
  ⟨by decide, by decide, rfl, rfl, rfl⟩

/-- DecodeAndEncodeAgree, last clause: two requests that differ in an input the format does not name. -/
theorem witness_same_used_inputs :
    let r := full 0x4#4
    let r' := { full 0x4#4 with stat := 0x00#8, c := 0x00#8 }
    r ≠ r' ∧ r.op = r'.op ∧ (r.op = 0x0#4 → r.ranges = r'.ranges) ∧ (r.op = 0x1#4 ∨ r.op = 0x2#4 → r.c = r'.c) ∧
      (r.op = 0x2#4 → r.w1 = r'.w1 ∧ r.w2 = r'.w2) ∧ (4 ≤ r.op.toNat ∧ r.op.toNat ≤ 8 → r.src = r'.src) ∧
      (r.op = 0x6#4 ∨ r.op = 0x7#4 → r.stat = r'.stat) := by decide

/-- IllegalSelectRaisesIllegalOp, at both ends of the illegal codes. -/
theorem witness_illegal_select : 11 ≤ (full 0xB#4).op.toNat ∧ 11 ≤ (full 0xF#4).op.toNat ∧
    ({ start 608 [] [] with inbox := [.request (full 0xB#4)] } : State).inbox = .request (full 0xB#4) :: [] :=
  ⟨by decide, by decide, rfl⟩

/-- RequesterActsBetweenOperations: nothing asked; a write that ends at the last offset; one that passes it. -/
theorem witness_requester_actions : (start 608 [] []).inbox = [] ∧
    (∀ j, j < [0x11#8, 0x22#8].length → 606 + j < (start 608 [] []).size .pb) ∧
    (∀ j, j < [0x11#8, 0x22#8].length → 510 + j < (start 608 [] []).size .sb) ∧
    1 < [0x11#8, 0x22#8].length ∧ (start 608 [] []).size .pb ≤ 607 + 1 ∧ (start 608 [] []).size .sb ≤ 511 + 1 := by
  decide +kernel

/-- The test states satisfy the invariant when their capacity does and their bytes fit. -/
theorem start_inv : State.Inv (start 604 [0x01#8, 0x00#8] [0x22#8]) := by
  refine ⟨by decide, by decide, by decide, by decide, by decide, ?_⟩
  constructor <;> simp [start, Outputs.absent]

/-- StepKeepsTheInvariant: a state with the invariant and a step from it that runs an operation. -/
theorem witness_step_from_invariant :
    State.Inv { start 604 [0x01#8, 0x00#8] [0x22#8] with inbox := [.request (full 0x3#4)] } ∧
    ∃ t, step { start 604 [0x01#8, 0x00#8] [0x22#8] with inbox := [.request (full 0x3#4)] } = .next t :=
  ⟨⟨start_inv.capacity, start_inv.pb_wf, start_inv.pb_within, start_inv.sb_wf, start_inv.sb_within,
    start_inv.outputs⟩, _, rfl⟩

/-- OperationsChangeOnlyTheirWriteSet, FaultDeliversOnlyItsName, EncodePathsOnlyFaultOnCapacity,
BuildingTwiceChangesNothing: each encode operation answers a next state, and so do the others. -/
theorem witness_every_operation_answers :
    (∃ t, exec (.buildStatus 0x81#8) (start 604 [] []) = .next t) ∧
    (∃ t, exec (.buildStatusDib 0x81#8) (start 604 [] []) = .next t) ∧
    (∃ t, exec (.buildWriteAck 0x81#8 0x80#8) (start 604 [] []) = .next t) ∧
    (∃ t, exec (.buildInitAck 0x81#8 0x80#8) (start 604 [] []) = .next t) ∧
    (∃ t, exec (.sectorEncode 0x81#8) (start 604 [] []) = .next t) ∧
    (∃ t, exec .sectorDecode (start 604 [] []) = .next t) ∧
    604 ≤ (start 604 [] []).cap :=
  ⟨⟨_, rfl⟩, ⟨_, rfl⟩, ⟨_, rfl⟩, ⟨_, rfl⟩, ⟨_, rfl⟩, ⟨_, rfl⟩, by decide⟩

/-- FaultDeliversOnlyItsName: a fault does occur. -/
theorem witness_a_fault_occurs : ∃ t, exec .pktLength (start 2 [0x01#8, 0x01#8] []) = .next t ∧
    t.out.fault = some .noTerminator ∧ FaultCode.noTerminator ≠ .noFault := ⟨_, rfl, by decide, by decide⟩

/-- CompletedOperationDeliversItsOutputs: an operation that completes. -/
theorem witness_completed : ∃ t, exec (.csumEncode 0x00#8) (start 604 [] []) = .next t ∧
    t.out.fault = some .noFault := ⟨_, rfl, rfl⟩

/-- ResultDependsOnlyOnInputsAndBuffers: two different states with the same capacity and bytes; and a result
that is not a mismatch. -/
theorem witness_same_buffers :
    let s := start 604 [0x01#8, 0x00#8] [0x22#8]
    let s' := { start 604 [0x01#8, 0x00#8] [0x22#8] with out := Outputs.faulted .illegalOp, mismatchCount := 3 }
    s ≠ s' ∧ s.cap = s'.cap ∧ (∀ m k, s.byteAt m k = s'.byteAt m k) ∧
      (∃ t, exec .pktLength s = .next t ∧ t.out.result ≠ some 0x06#8) ∧ ∃ t, exec .pktLength s' = .next t :=
  ⟨by decide, rfl, fun m _ => by cases m <;> rfl, ⟨_, rfl, by decide +kernel⟩, _, rfl⟩

/-- CapacityFaultBelowTheLeastCapacity: one capacity short, for each of its clauses (V27). -/
theorem witness_capacities : (start 17 [] []).cap < 18 ∧ (start 22 [] []).cap < 23 ∧ (start 46 [] []).cap < 47 ∧
    (start 603 [] []).cap < 604 ∧ (start 601 [] []).cap < 602 ∧ (start 24 [] []).cap < 25 := by decide

/-- CapacityFaultOnlyFromChecksumRanges, CsumComputeFaultsOutsideItsMemory: a range one offset too long in
each memory (V16). -/
theorem witness_range_outside :
    let s := start 608 [] []
    (∃ t, exec (.csumCompute [⟨.pb, 600, 608⟩]) s = .next t) ∧ 604 ≤ s.cap ∧
    (⟨.pb, 600, 608⟩ : ByteRange) ∈ [(⟨.pb, 600, 608⟩ : ByteRange)] ∧ 600 ≤ 608 ∧ s.size .pb ≤ 608 ∧
    s.size .sb ≤ 512 := ⟨⟨_, rfl⟩, by decide, by decide, by decide, by decide, by decide⟩

/-- XorRangeIsTheXorOfItsBytes: an empty range, a longer one, and another order of offsets 7 to 9. -/
theorem witness_offsets : 6 < 7 ∧ 7 ≤ 7 ∧ List.Perm [9, 7, 8] (List.range' 7 (9 + 1 - 7)) := by decide

/-- CsumComputeDeliversTheXor, CsumComputeIgnoresOrderAndCancels: ranges that end at the last offsets, one
empty range beyond, and a permutation of them. -/
theorem witness_ranges_inside :
    let s := start 608 [] []
    (∀ r ∈ [(⟨.pb, 600, 607⟩ : ByteRange), ⟨.sb, 0, 511⟩, ⟨.sb, 600, 599⟩], r.first ≤ r.last → r.last < s.size r.mem) ∧
    List.Perm [(⟨.pb, 600, 607⟩ : ByteRange), ⟨.sb, 0, 511⟩] [⟨.sb, 0, 511⟩, ⟨.pb, 600, 607⟩] := by decide

/-- PairCarriesTheChecksumBits, EncodedPairVerifiesItsChecksum: the operations answer. -/
theorem witness_pair : (∃ t, exec (.csumEncode 0x7F#8) (start 604 [] []) = .next t) ∧
    (∃ v, exec (.csumVerify 0x7F#8 0xFF#8 0xBF#8) (start 604 [] []) = .next v) ∧
    ∃ v, exec (.csumVerify 0x7F#8 0xBF#8 0xFF#8) (start 604 [] []) = .next v :=
  ⟨⟨_, rfl⟩, ⟨_, rfl⟩, _, rfl⟩

/-- PktLengthDeliversTheFirstZero: the first zero at offset 2 (V1), and at the last offset. -/
theorem witness_first_zero :
    (2 < (start 608 [0x01#8, 0x02#8, 0x00#8] []).cap ∧
      (start 608 [0x01#8, 0x02#8, 0x00#8] []).byteAt .pb 2 = 0x00#8 ∧
      ∀ k, k < 2 → (start 608 [0x01#8, 0x02#8, 0x00#8] []).byteAt .pb k ≠ 0x00#8) ∧
    (2 < (start 3 [0x01#8, 0x02#8, 0x00#8] []).cap ∧
      (start 3 [0x01#8, 0x02#8, 0x00#8] []).byteAt .pb 2 = 0x00#8) := by decide

/-- UnterminatedBufferRaisesNoTerminator, at the least capacity of CMD_VERIFY. -/
theorem witness_unterminated :
    (∀ k, k < (start 25 (List.replicate 25 0x80#8) []).cap →
      (start 25 (List.replicate 25 0x80#8) []).byteAt .pb k ≠ 0x00#8) ∧
    25 ≤ (start 25 (List.replicate 25 0x80#8) []).cap := by decide

/-- The four builder statements, at the least capacity of each. -/
theorem witness_builder_capacities : 18 ≤ (start 18 [] []).cap ∧ 23 ≤ (start 23 [] []).cap ∧
    47 ≤ (start 47 [] []).cap := by decide

/-- PktLengthFindsTheBuiltTerminator, ControlPacketsAreSevenBitClean: valid operands, and the least capacity of
every kind. -/
theorem witness_valid_operands : (0x80#8 : Byte).getLsbD 7 = true ∧ (0xFF#8 : Byte).getLsbD 7 = true ∧
    (22 < (start 23 [] []).cap ∧ ∃ t, exec (.buildStatus 0x80#8) (start 23 [] []) = .next t) ∧
    (46 < (start 47 [] []).cap ∧ ∃ t, exec (.buildStatusDib 0x80#8) (start 47 [] []) = .next t) ∧
    (17 < (start 18 [] []).cap ∧ ∃ t, exec (.buildWriteAck 0x80#8 0xFF#8) (start 18 [] []) = .next t) ∧
    (17 < (start 18 [] []).cap ∧ ∃ t, exec (.buildInitAck 0x80#8 0xFF#8) (start 18 [] []) = .next t) ∧
    (603 < (start 604 [] []).cap ∧ ∃ t, exec (.sectorEncode 0x80#8) (start 604 [] []) = .next t) :=
  ⟨by decide, by decide, ⟨by decide, _, rfl⟩, ⟨by decide, _, rfl⟩, ⟨by decide, _, rfl⟩, ⟨by decide, _, rfl⟩,
    by decide, _, rfl⟩

/-- ZeroOperandShortensTheMeasuredPacket: a zero source id, and a zero status beside a source id that is not. -/
theorem witness_zero_operands : 604 ≤ (start 604 [] []).cap ∧ (0x81#8 : Byte) ≠ 0x00#8 ∧
    (∃ t, exec (.buildStatus 0x00#8) (start 604 [] []) = .next t) ∧
    ∃ t, exec (.buildInitAck 0x81#8 0x00#8) (start 604 [] []) = .next t :=
  ⟨by decide, by decide, ⟨_, rfl⟩, _, rfl⟩

/-- UnpackInvertsTheCarrier: the last place of a carrier, and the last byte of a full section. -/
theorem witness_full_section : 6 ≤ 6 ∧
    ([0x80#8, 0x01#8, 0xFF#8, 0x7F#8, 0x00#8, 0xC3#8, 0x55#8] : List Byte).length ≤ 7 ∧
    ([0x80#8, 0x01#8, 0xFF#8, 0x7F#8, 0x00#8, 0xC3#8, 0x55#8] : List Byte)[6]? = some 0x55#8 := by decide

/-- The statements about SECTOR_ENCODE, SectorRoundTrip: the least capacity, a valid source id, a next state. -/
theorem witness_sector_encode : 604 ≤ (start 604 [] []).cap ∧ (0x81#8 : Byte).getLsbD 7 = true ∧
    ∃ t, exec (.sectorEncode 0x81#8) (start 604 [] []) = .next t := ⟨by decide, by decide, _, rfl⟩

/-- SectorDecodeReconstructsAndCompares: the least capacity. -/
theorem witness_sector_decode_capacity : 602 ≤ (start 602 [] []).cap := by decide

/-- SectorDecodeIgnoresUnreadBits: two states that differ in bytes SECTOR_DECODE does not read. -/
theorem witness_unread_bytes_differ :
    let s := start 604 [0xFF#8] []
    let s' := s.writeBytes .pb 0 [0x3F#8]
    s.byteAt .pb 0 ≠ s'.byteAt .pb 0 ∧ 602 ≤ s.cap ∧ 602 ≤ s'.cap ∧
    (∀ k, 7 ≤ k → s.byteAt .pb k = s'.byteAt .pb k) ∧
    (∃ t, exec .sectorDecode s = .next t) ∧ ∃ t, exec .sectorDecode s' = .next t := by
  refine ⟨by decide, by decide, by decide, fun k hk => ?_, ⟨_, rfl⟩, _, rfl⟩
  rw [State.byteAt_writeBytes, if_neg (by simp; omega)]

/-- SectorDecodeCatchesAFlippedBit: a position of each of its four kinds, at the ends of their ranges. -/
theorem witness_covered_bits :
    let covered := fun k j : Nat => 7 ≤ k ∧ k ≤ 13 ∧ j < 8 ∨ k = 14 ∧ j = 6 ∨ 15 ≤ k ∧ k ≤ 599 ∧ j < 7 ∨
      600 ≤ k ∧ k ≤ 601 ∧ (j = 0 ∨ j = 2 ∨ j = 4 ∨ j = 6)
    covered 7 0 ∧ covered 13 7 ∧ covered 14 6 ∧ covered 15 6 ∧ covered 599 6 ∧ covered 601 6 ∧
      604 ≤ (start 604 [] []).cap ∧ ∃ t, exec (.sectorEncode 0x81#8) (start 604 [] []) = .next t :=
  ⟨by decide, by decide, by decide, by decide, by decide, by decide, by decide, _, rfl⟩

/-- SectorDecodeMissesAnUncoveredBit: a position of each of its five kinds, at the ends of their ranges. -/
theorem witness_uncovered_bits :
    let uncovered := fun k j : Nat => k ≤ 6 ∨ k = 14 ∧ j ≠ 6 ∨ 15 ≤ k ∧ k ≤ 599 ∧ j = 7 ∨
      600 ≤ k ∧ k ≤ 601 ∧ (j = 1 ∨ j = 3 ∨ j = 5 ∨ j = 7) ∨ 602 ≤ k ∧ k < (start 604 [] []).cap
    uncovered 0 0 ∧ uncovered 6 7 ∧ uncovered 14 5 ∧ uncovered 14 7 ∧ uncovered 15 7 ∧ uncovered 599 7 ∧
      uncovered 600 1 ∧ uncovered 601 7 ∧ uncovered 602 0 ∧ uncovered 603 7 :=
  ⟨by simp, by simp, by simp, by simp, by simp, by simp, by simp, by simp, by simp [start], by simp [start]⟩

/-- MismatchLeavesThePacketForARetry: a mismatch of SECTOR_DECODE (P4). -/
theorem witness_sector_mismatch :
    exec .sectorDecode plainBuffer = .next (run .sectorDecode plainBuffer) ∧
      (run .sectorDecode plainBuffer).out.result = some 0x06#8 :=
  ⟨exec_run _ _, by rw [test_sectorDecode_mismatch]; rfl⟩

/-- MismatchLeavesThePacketForARetry: a mismatch of CMD_VERIFY (V42) and of CSUM_VERIFY (V13). -/
theorem witness_verifier_mismatches :
    (∃ t, exec .cmdVerify (start 608 (commandPacket.set 19 0xA4#8) []) = .next t ∧ t.out.isMatch = some false) ∧
    ∃ t, exec (.csumVerify 0x7F#8 0xBF#8 0xFF#8) (start 608 [] []) = .next t ∧ t.out.isMatch = some false :=
  ⟨⟨_, exec_run _ _, test_cmdVerify.2⟩, _, exec_run _ _, test_csumVerify.2⟩

/-- CmdVerifyComparesTheCommandChecksum: V41, L = 28; and the shortest packet it takes, L = 3 (V44). -/
theorem witness_command_packets :
    (25 ≤ (start 29 commandPacket []).cap ∧ 3 ≤ 28 ∧ 28 < (start 29 commandPacket []).cap ∧
      (start 29 commandPacket []).byteAt .pb 28 = 0x00#8 ∧
      ∀ k, k < 28 → (start 29 commandPacket []).byteAt .pb k ≠ 0x00#8) ∧
    (25 ≤ (start 25 [0xFF#8, 0x3F#8, 0xCF#8, 0x00#8] []).cap ∧ 3 < (start 25 [0xFF#8, 0x3F#8, 0xCF#8, 0x00#8] []).cap ∧
      (start 25 [0xFF#8, 0x3F#8, 0xCF#8, 0x00#8] []).byteAt .pb 3 = 0x00#8 ∧
      ∀ k, k < 3 → (start 25 [0xFF#8, 0x3F#8, 0xCF#8, 0x00#8] []).byteAt .pb k ≠ 0x00#8) := by decide

/-- CmdVerifyFaultPriority: each of its four outcomes occurs. -/
theorem witness_cmd_outcomes :
    (∃ t, exec .cmdVerify (start 24 [] []) = .next t ∧ t.out.fault = some .capacityFault) ∧
    (∃ t, exec .cmdVerify (start 25 (List.replicate 25 0x80#8) []) = .next t ∧ t.out.fault = some .noTerminator) ∧
    (∃ t, exec .cmdVerify (start 25 [0xFF#8, 0x3F#8, 0x00#8] []) = .next t ∧ t.out.fault = some .shortPacket) ∧
    ∃ t, exec .cmdVerify (start 29 commandPacket []) = .next t ∧ t.out.fault = some .noFault :=
  ⟨⟨_, rfl, by decide⟩, ⟨_, rfl, by decide +kernel⟩, ⟨_, rfl, by decide +kernel⟩, _, rfl, by decide +kernel⟩

end Sys2Proof.Tests
end

/-!
The carrier of a section and its inverse, bit by bit (R51, R53). The one idea: `carrierBits_getLsbD` names the
source of every bit of a carrier, so the bit that `unpack` takes from place `6 - i` is bit 7 of byte `i`.
-/
namespace Sys2Proof.Machine

/-- The mark of a wire byte leaves the seven bits below it alone. -/
theorem mark_getLsbD_of_lt {j : Nat} (hj : j < 7) : (0x80#8 : Byte).getLsbD j = false := by
  revert j
  decide

/-- Bit 7 of a byte moved to bit `p` is the only bit that can be set. -/
theorem topBit_shiftLeft_getLsbD (b : Byte) {p : Nat} (hp : p ≤ 7) (j : Nat) :
    (((b >>> 7) &&& 0x01#8) <<< p).getLsbD j = (decide (j = p) && b.getLsbD 7) := by
  rw [BitVec.getLsbD_shiftLeft, BitVec.getLsbD_and, BitVec.getLsbD_ushiftRight, BitVec.getLsbD_one]
  by_cases hj : j = p
  · have hj8 : p < 8 := by omega
    simp [hj, hj8]
  · by_cases hlt : j < p
    · simp [hlt, hj]
    · have hne : j - p ≠ 0 := by omega
      simp [hne, hj]

/-- Where each bit of the packed top bits comes from: bit `p - k` is bit 7 of byte `k`, every other bit is 0 (R51).
The places do not run out as long as the section has at most `p + 1` bytes. -/
theorem carrierBits_getLsbD (bs : List Byte) {p : Nat} (hlen : bs.length ≤ p + 1) (hp : p ≤ 7) (j : Nat) :
    (carrierBits bs p).getLsbD j = (decide (j ≤ p) && (bs.getD (p - j) 0x00#8).getLsbD 7) := by
  induction bs generalizing p with
  | nil => simp [carrierBits]
  | cons b bs ih =>
    rw [carrierBits, BitVec.getLsbD_or, topBit_shiftLeft_getLsbD b hp]
    cases p with
    | zero =>
      have hnil : bs = [] := List.eq_nil_of_length_eq_zero (by simpa using hlen)
      subst hnil
      by_cases hj : j = 0 <;> simp [carrierBits, hj]
    | succ p =>
      rw [Nat.add_sub_cancel, ih (by simpa using hlen) (by omega)]
      rcases Nat.lt_trichotomy j (p + 1) with hj | hj | hj
      · have hsub : p + 1 - j = (p - j) + 1 := by omega
        simp [hsub, Nat.le_of_lt_succ hj, Nat.le_of_lt hj, Nat.ne_of_lt hj]
      · simp [hj]
      · have habove : ¬ j ≤ p := by omega
        simp [habove, Nat.not_le.mpr hj, Nat.ne_of_gt hj]

/-- Bit 7 of every carrier is 1 (R51). -/
@[simp] theorem carrier_getLsbD_seven (bs : List Byte) : (carrier bs).getLsbD 7 = true := by
  simp [carrier]

/-- Bit `6 - i` of the carrier of at most seven bytes is bit 7 of byte `i` (R51). -/
theorem carrier_getLsbD_of_getElem? {bs : List Byte} {i : Nat} {b : Byte} (hlen : bs.length ≤ 7)
    (hb : bs[i]? = some b) : (carrier bs).getLsbD (6 - i) = b.getLsbD 7 := by
  have hi : i < bs.length := (List.getElem?_eq_some_iff.mp hb).1
  have hplace : 6 - (6 - i) = i := by omega
  rw [carrier, BitVec.getLsbD_or, mark_getLsbD_of_lt (by omega), carrierBits_getLsbD bs hlen (by decide), hplace]
  simp [hb]

/-- Bit 7 of an unpacked byte is bit `6 - i` of the carrier (R53). -/
theorem unpack_getLsbD_seven (m d : Byte) {i : Nat} (hi : i ≤ 6) :
    (unpack m i d).getLsbD 7 = m.getLsbD (6 - i) := by
  have hplace : 7 - (i + 1) = 6 - i := by omega
  have hin : ¬ 7 < i + 1 := by omega
  rw [unpack, BitVec.getLsbD_or, BitVec.getLsbD_and, BitVec.getLsbD_and, BitVec.getLsbD_shiftLeft, hplace]
  simp [hin]

/-- Bits 6 to 0 of an unpacked byte are those of the data byte (R53). -/
theorem unpack_getLsbD_of_lt (m d : Byte) (i : Nat) {j : Nat} (hj : j < 7) :
    (unpack m i d).getLsbD j = d.getLsbD j := by
  have hdata : ∀ k, k < 7 → (0x7F#8 : Byte).getLsbD k = true := by decide
  simp [unpack, mark_getLsbD_of_lt hj, hdata j hj]

/-- Unpacking a wire byte with the carrier of its section gives the original byte back (R51 to R53). -/
theorem unpack_carrier {bs : List Byte} {i : Nat} {b : Byte} (hlen : bs.length ≤ 7) (hb : bs[i]? = some b) :
    unpack (carrier bs) i (b ||| 0x80#8) = b := by
  have hi : i < bs.length := (List.getElem?_eq_some_iff.mp hb).1
  apply BitVec.eq_of_getLsbD_eq
  intro j hj
  rcases Nat.lt_or_eq_of_le (Nat.le_of_lt_succ hj) with hlow | rfl
  · rw [unpack_getLsbD_of_lt _ _ _ hlow, BitVec.getLsbD_or, mark_getLsbD_of_lt hlow, Bool.or_false]
  · rw [unpack_getLsbD_seven _ _ (by omega), carrier_getLsbD_of_getElem? hlen hb]

/-- Settles O37, by the bits of `unpack` and the source of each bit of a carrier. -/
theorem unpackInvertsTheCarrier : Obligations.UnpackInvertsTheCarrier :=
  ⟨fun m d _ hi => ⟨unpack_getLsbD_seven m d hi, fun _ hj => unpack_getLsbD_of_lt m d _ hj⟩,
    fun _ _ _ hlen hb => unpack_carrier hlen hb⟩

end Sys2Proof.Machine

/-!
`xor_range` (R67) and the delivery of the checksum pair (R71). The one idea: the bytes of a range are `read` mapped
over the list of its offsets, `List.range'`, so each law of `xor_range` is a law of that list and of `xorBytes`.
-/
namespace Sys2Proof.Machine

/-- The bytes of a range are those at its offsets, in rising order (R10). -/
theorem bytesFrom_eq_map_range' (read : Nat → Byte) (a b : Nat) :
    bytesFrom read a b = (List.range' a (b + 1 - a)).map read := by
  rw [bytesFrom, List.range'_eq_map_range, List.map_map]
  rfl

theorem bytesFrom_of_lt (read : Nat → Byte) {a b : Nat} (h : b < a) : bytesFrom read a b = [] :=
  List.eq_nil_of_length_eq_zero (by rw [bytesFrom_length]; omega)

@[simp] theorem bytesFrom_self (read : Nat → Byte) (a : Nat) : bytesFrom read a a = [read a] := by
  simp [bytesFrom_eq_map_range']

/-- A range that ends one offset later has one byte more, at its end. -/
theorem bytesFrom_succ (read : Nat → Byte) {a b : Nat} (h : a ≤ b) :
    bytesFrom read a (b + 1) = bytesFrom read a b ++ [read (b + 1)] := by
  have hcount : b + 1 + 1 - a = (b + 1 - a) + 1 := by omega
  have hlast : a + (b + 1 - a) = b + 1 := by omega
  rw [bytesFrom_eq_map_range', bytesFrom_eq_map_range', hcount, List.range'_1_concat, List.map_append, hlast]
  rfl

/-- An empty range has checksum zero (R67). -/
theorem xorRange_of_lt (read : Nat → Byte) {a b : Nat} (h : b < a) : xorRange read a b = 0x00#8 := by
  rw [xorRange, bytesFrom_of_lt read h, xorBytes_nil]

@[simp] theorem xorRange_self (read : Nat → Byte) (a : Nat) : xorRange read a a = read a := by
  simp [xorRange]

theorem xorRange_succ (read : Nat → Byte) {a b : Nat} (h : a ≤ b) :
    xorRange read a (b + 1) = xorRange read a b ^^^ read (b + 1) := by
  simp [xorRange, bytesFrom_succ read h]

/-- The offsets of a range may be taken in any order, since XOR does not see the order of its bytes (R67). -/
theorem xorBytes_map_of_perm_range' (read : Nat → Byte) {a b : Nat} {order : List Nat}
    (h : order.Perm (List.range' a (b + 1 - a))) : xorBytes (order.map read) = xorRange read a b := by
  rw [xorRange, bytesFrom_eq_map_range']
  exact xorBytes_perm (h.map read)

/-- Settles O18, by the list of offsets of a range: empty, single, extended at its end, permuted. -/
theorem xorRangeIsTheXorOfItsBytes : Obligations.XorRangeIsTheXorOfItsBytes :=
  fun read a => ⟨fun _ hb => xorRange_of_lt read hb, xorRange_self read a, fun _ hb => xorRange_succ read hb,
    fun _ _ horder => xorBytes_map_of_perm_range' read horder⟩

/-- What CSUM_ENCODE does: it delivers the pair of its operand, from every state (R71). -/
theorem exec_csumEncode (c : Byte) (s : State) :
    exec (.csumEncode c) s = .next (s.deliver (Outputs.ofPair (csumPair c).1 (csumPair c).2)) := rfl

/-- The two wire bytes, with the mark in the odd bits written out (R69). -/
theorem csumPair_eq (c : Byte) : csumPair c = (c ||| 0xAA#8, (c >>> 1) ||| 0xAA#8) := rfl

/-- Settles O22: CSUM_ENCODE delivers the pair and replaces nothing but the outputs. -/
theorem csumEncodeDeliversThePair : Obligations.CsumEncodeDeliversThePair := by
  intro c s
  rw [exec_csumEncode, csumPair_eq]
  rfl

end Sys2Proof.Machine

/-!
`first_zero` (R73). The one idea: `firstZero_cases` says what the search can answer, and two offsets of a zero byte
with none before them are the same offset, so each answer is also characterised by what it says.
-/
namespace Sys2Proof.Machine

/-- There is at most one least offset of a zero byte. -/
theorem leastZero_unique {read : Nat → Byte} {k l : Nat} (hk : read k = 0x00#8) (hl : read l = 0x00#8)
    (hkLeast : ∀ j, j < k → read j ≠ 0x00#8) (hlLeast : ∀ j, j < l → read j ≠ 0x00#8) : k = l :=
  Nat.le_antisymm (Nat.le_of_not_lt fun hlt => hkLeast l hlt hl) (Nat.le_of_not_lt fun hlt => hlLeast k hlt hk)

theorem firstZero_eq_some_iff {cap : Nat} {read : Nat → Byte} {k : Nat} :
    firstZero cap read = some k ↔ k < cap ∧ read k = 0x00#8 ∧ ∀ j, j < k → read j ≠ 0x00#8 := by
  obtain ⟨hnone, hnoZero⟩ | ⟨l, hsome, hlt, hl, hlLeast⟩ := firstZero_cases cap read
  · rw [hnone]
    exact ⟨nofun, fun ⟨hlt, hk, _⟩ => absurd hk (hnoZero k hlt)⟩
  · rw [hsome, Option.some_inj]
    constructor
    · rintro rfl
      exact ⟨hlt, hl, hlLeast⟩
    · rintro ⟨_, hk, hkLeast⟩
      exact leastZero_unique hl hk hlLeast hkLeast

theorem firstZero_eq_none_iff {cap : Nat} {read : Nat → Byte} :
    firstZero cap read = none ↔ ∀ k, k < cap → read k ≠ 0x00#8 := by
  obtain ⟨hnone, hnoZero⟩ | ⟨l, hsome, hlt, hl, _⟩ := firstZero_cases cap read
  · exact ⟨fun _ => hnoZero, fun _ => hnone⟩
  · rw [hsome]
    exact ⟨nofun, fun hnoZero => absurd hl (hnoZero l hlt)⟩

/-- Settles O26, by the two answers of the search and the uniqueness of a least offset. -/
theorem firstZeroIsTheLeastZeroOffset : Obligations.FirstZeroIsTheLeastZeroOffset :=
  fun _ _ => ⟨fun _ => firstZero_eq_some_iff, firstZero_eq_none_iff⟩

end Sys2Proof.Machine

/-!
The encode paths (R97, R101). The one idea: each of them is `ifCapacity` around `emitPacket` of its own packet, so
CapacityFault is the only other outcome, and its packet carries the header's SRC at offset 8 and STAT at offset 11
(R46) whatever the operands are.
-/
namespace Sys2Proof.Machine

/-- What an encode path does: its packet where it fits, CapacityFault otherwise (R29, R97). -/
theorem exec_of_packetOf {i : Instr} {s : State} {need : Nat} {p : List Byte}
    (hpacket : packetOf i s = some (need, p)) : exec i s = .next (s.ifCapacity need (s.emitPacket p)) := by
  cases i <;> cases hpacket <;> rfl

theorem header_getElem?_src (src type stat : Byte) (odd grp : Nat) :
    (header src type stat odd grp)[8]? = some src := rfl

theorem header_getElem?_stat (src type stat : Byte) (odd grp : Nat) :
    (header src type stat odd grp)[11]? = some stat := rfl

theorem statusPacket_getElem?_src (src : Byte) : (statusPacket src)[8]? = some src :=
  header_getElem?_src src typeStatus statFixed 4 0

theorem statusDibPacket_getElem?_src (src : Byte) : (statusDibPacket src)[8]? = some src :=
  header_getElem?_src src typeStatus statFixed 4 3

theorem ackPacket_getElem?_src (type src stat : Byte) : (ackPacket type src stat)[8]? = some src :=
  header_getElem?_src src type stat 0 0

theorem ackPacket_getElem?_stat (type src stat : Byte) : (ackPacket type src stat)[11]? = some stat :=
  header_getElem?_stat src type stat 0 0

theorem sectorPacket_getElem?_src (src : Byte) (read : Nat → Byte) : (sectorPacket src read)[8]? = some src := by
  rw [sectorPacket_getElem?_header src read 8 (by decide), header_getElem?_src]

/-- The packet of an encode path carries its operands, valid or not: SRC, and STAT for an acknowledge (R101). -/
theorem packetOf_carries_operands {i : Instr} {src stat : Byte} (s : State)
    (hencode : i = .buildStatus src ∨ i = .buildStatusDib src ∨ i = .buildWriteAck src stat ∨
      i = .buildInitAck src stat ∨ i = .sectorEncode src) :
    ∃ need p, packetOf i s = some (need, p) ∧ p[8]? = some src ∧
      (i = .buildWriteAck src stat ∨ i = .buildInitAck src stat → p[11]? = some stat) := by
  obtain rfl | rfl | rfl | rfl | rfl := hencode
  case inl => exact ⟨_, _, rfl, statusPacket_getElem?_src src, by simp⟩
  case inr.inl => exact ⟨_, _, rfl, statusDibPacket_getElem?_src src, by simp⟩
  case inr.inr.inl =>
    exact ⟨_, _, rfl, ackPacket_getElem?_src _ src stat, fun _ => ackPacket_getElem?_stat _ src stat⟩
  case inr.inr.inr.inl =>
    exact ⟨_, _, rfl, ackPacket_getElem?_src _ src stat, fun _ => ackPacket_getElem?_stat _ src stat⟩
  case inr.inr.inr.inr => exact ⟨_, _, rfl, sectorPacket_getElem?_src src _, by simp⟩

/-- Settles O17, by the two outcomes of `ifCapacity` and the operands that the packet carries. -/
theorem encodePathsOnlyFaultOnCapacity : Obligations.EncodePathsOnlyFaultOnCapacity := by
  intro i s t src stat hencode hexec
  obtain ⟨need, p, hpacket, hsrc, hstat⟩ := packetOf_carries_operands s hencode
  rw [exec_of_packetOf hpacket] at hexec
  injection hexec with ht
  subst ht
  obtain ⟨_, hfault⟩ | ⟨_, hdone⟩ := s.ifCapacity_cases need (s.emitPacket p)
  · left
    rw [hfault, State.raise_out, Outputs.faulted_fault]
  · right
    rw [hdone, State.emitPacket_out, Outputs.completed_fault]
    exact ⟨rfl, State.byteAt_emitPacket_of_getElem? hsrc,
      fun hack => State.byteAt_emitPacket_of_getElem? (hstat hack)⟩

end Sys2Proof.Machine

/-!
The checksum pair, bit by bit (R69, R70, R72). The one idea: `csumUnpair` takes its even bits from the byte at the
lower offset and its odd bits from the other one, both from their even places, and `csumPair` puts them there.
-/
namespace Sys2Proof.Machine

/-- Two bytes are equal when their even-numbered and their odd-numbered bits are. -/
theorem eq_of_even_odd_bits {a b : Byte}
    (h : ∀ j, j < 4 → a.getLsbD (2 * j) = b.getLsbD (2 * j) ∧ a.getLsbD (2 * j + 1) = b.getLsbD (2 * j + 1)) :
    a = b := by
  apply BitVec.eq_of_getLsbD_eq
  intro k hk
  obtain ⟨heven, hodd⟩ := h (k / 2) (by omega)
  obtain hmod | hmod := Nat.mod_two_eq_zero_or_one k
  · have hplace : 2 * (k / 2) = k := by omega
    rwa [hplace] at heven
  · have hplace : 2 * (k / 2) + 1 = k := by omega
    rwa [hplace] at hodd

theorem csumMask_bits {j : Nat} (hj : j < 4) :
    csumMask.getLsbD (2 * j) = false ∧ csumMask.getLsbD (2 * j + 1) = true := by
  revert j
  decide

theorem csumExtract_bits {j : Nat} (hj : j < 4) :
    csumExtract.getLsbD (2 * j) = true ∧ csumExtract.getLsbD (2 * j + 1) = false := by
  revert j
  decide

/-- The byte at the lower offset: even-numbered bits of c in place, the others 1 (R69). -/
theorem csumPair_fst_bits (c : Byte) {j : Nat} (hj : j < 4) :
    (csumPair c).1.getLsbD (2 * j) = c.getLsbD (2 * j) ∧ (csumPair c).1.getLsbD (2 * j + 1) = true := by
  simp [csumPair, csumMask_bits hj]

/-- The byte at the higher offset: odd-numbered bits of c one place down, the others 1 (R69). -/
theorem csumPair_snd_bits (c : Byte) {j : Nat} (hj : j < 4) :
    (csumPair c).2.getLsbD (2 * j) = c.getLsbD (2 * j + 1) ∧ (csumPair c).2.getLsbD (2 * j + 1) = true := by
  simp [csumPair, csumMask_bits hj, Nat.add_comm 1]

/-- Where the bits of the carried value come from (R70). -/
theorem csumUnpair_bits (w1 w2 : Byte) {j : Nat} (hj : j < 4) :
    (csumUnpair w1 w2).getLsbD (2 * j) = w1.getLsbD (2 * j) ∧
      (csumUnpair w1 w2).getLsbD (2 * j + 1) = w2.getLsbD (2 * j) := by
  obtain ⟨heven, hodd⟩ := csumExtract_bits hj
  have hnext : 2 * j + 1 < 8 := by omega
  have hprev : 2 * j < 1 ∨ csumExtract.getLsbD (2 * j - 1) = false := by
    revert j
    decide
  constructor
  · simp only [csumUnpair, BitVec.getLsbD_or, BitVec.getLsbD_and, BitVec.getLsbD_shiftLeft, heven]
    obtain hlow | hlow := hprev <;> simp only [hlow] <;> simp
  · simp only [csumUnpair, BitVec.getLsbD_or, BitVec.getLsbD_and, BitVec.getLsbD_shiftLeft, Nat.add_sub_cancel,
      heven, hodd, hnext]
    simp

/-- A byte is the carried value exactly when its bits are those of the pair (R72). -/
theorem eq_csumUnpair_iff (c w1 w2 : Byte) : c = csumUnpair w1 w2 ↔
    ∀ j, j < 4 → c.getLsbD (2 * j) = w1.getLsbD (2 * j) ∧ c.getLsbD (2 * j + 1) = w2.getLsbD (2 * j) := by
  constructor
  · rintro rfl j hj
    exact csumUnpair_bits w1 w2 hj
  · intro h
    apply eq_of_even_odd_bits
    intro j hj
    obtain ⟨heven, hodd⟩ := csumUnpair_bits w1 w2 hj
    rw [heven, hodd]
    exact h j hj

/-- Bits 7, 5, 3, 1 of the pair carry nothing (R70). -/
theorem csumUnpair_congr {w1 w2 v1 v2 : Byte}
    (h1 : ∀ j, j < 4 → w1.getLsbD (2 * j) = v1.getLsbD (2 * j))
    (h2 : ∀ j, j < 4 → w2.getLsbD (2 * j) = v2.getLsbD (2 * j)) : csumUnpair w1 w2 = csumUnpair v1 v2 := by
  apply eq_of_even_odd_bits
  intro j hj
  obtain ⟨heven, hodd⟩ := csumUnpair_bits w1 w2 hj
  obtain ⟨heven', hodd'⟩ := csumUnpair_bits v1 v2 hj
  exact ⟨by rw [heven, heven', h1 j hj], by rw [hodd, hodd', h2 j hj]⟩

/-- The carried value of a pair with its bytes exchanged is c only for a c of equal neighbour bits (R72). -/
theorem eq_csumUnpair_exchanged_iff (c : Byte) : c = csumUnpair (csumPair c).2 (csumPair c).1 ↔
    ∀ j, j < 4 → c.getLsbD (2 * j) = c.getLsbD (2 * j + 1) := by
  rw [eq_csumUnpair_iff]
  apply forall₂_congr
  intro j hj
  rw [(csumPair_fst_bits c hj).1, (csumPair_snd_bits c hj).1]
  exact ⟨fun h => h.1, fun h => ⟨h, h.symm⟩⟩

/-- A byte with the mark in its odd bits is at least the mark (R69). -/
theorem mask_le_or_mask (b : Byte) : 170 ≤ (b ||| csumMask).toNat := by
  rw [BitVec.toNat_or]
  exact Nat.right_le_or

theorem matchFlag_eq_true_iff (x y : Byte) : matchFlag x y = true ↔ x = y := beq_iff_eq

theorem matchFlag_eq_decide (x y : Byte) : matchFlag x y = decide (x = y) := rfl

/-- What CSUM_VERIFY does: it delivers the comparison, from every state (R72). -/
theorem exec_csumVerify (c w1 w2 : Byte) (s : State) :
    exec (.csumVerify c w1 w2) s = .next (s.deliver (Outputs.ofMatch (matchFlag c (csumUnpair w1 w2)))) := rfl

theorem isMatch_of_exec_csumVerify {c w1 w2 : Byte} {s t : State} (h : exec (.csumVerify c w1 w2) s = .next t) :
    t.out.isMatch = some (matchFlag c (csumUnpair w1 w2)) := by
  rw [exec_csumVerify] at h
  injection h with h
  rw [← h]
  rfl

/-- Settles O23, by the source of each bit of the two wire bytes. -/
theorem pairCarriesTheChecksumBits : Obligations.PairCarriesTheChecksumBits := by
  intro c s t hexec
  rw [exec_csumEncode] at hexec
  injection hexec with ht
  subst ht
  refine ⟨(csumPair c).1, (csumPair c).2, rfl, rfl, fun j hj => ?_, mask_le_or_mask c, mask_le_or_mask (c >>> 1)⟩
  obtain ⟨heven, heven'⟩ := csumPair_fst_bits c hj
  obtain ⟨hodd, hodd'⟩ := csumPair_snd_bits c hj
  exact ⟨heven, heven', hodd, hodd'⟩

/-- Settles O24: the verdict is the equality with the carried value, read bit by bit. -/
theorem csumVerifyComparesTheCarriedValue : Obligations.CsumVerifyComparesTheCarriedValue := by
  intro c w1 w2 s
  have hverdict : matchFlag c (csumUnpair w1 w2) = decide (∀ j : Fin 4,
      c.getLsbD (2 * j.val) = w1.getLsbD (2 * j.val) ∧ c.getLsbD (2 * j.val + 1) = w2.getLsbD (2 * j.val)) := by
    rw [matchFlag_eq_decide, decide_eq_decide, eq_csumUnpair_iff, Fin.forall_iff]
  rw [exec_csumVerify, hverdict]
  rfl

/-- Settles O25: unpairing inverts the pair, and the exchanged pair carries c only for equal neighbour bits. -/
theorem encodedPairVerifiesItsChecksum : Obligations.EncodedPairVerifiesItsChecksum := by
  intro c s t hexec
  rw [exec_csumEncode] at hexec
  injection hexec with ht
  subst ht
  refine ⟨(csumPair c).1, (csumPair c).2, rfl, rfl, fun d u v hverify => ?_, fun u v hverify => ?_⟩
  · simp [isMatch_of_exec_csumVerify hverify, matchFlag_eq_decide]
  · rw [isMatch_of_exec_csumVerify hverify, Option.some_inj, matchFlag_eq_true_iff, eq_csumUnpair_exchanged_iff]

end Sys2Proof.Machine

/-!
SECTOR_DECODE as a function of the bytes of PB (R86, R88, R89). The ideas: `decodedByte` names the two wire bytes
that each of the 512 reconstructed bytes comes from, and the comparison of R88 is that a `syndrome` is zero. The
syndrome is linear under XOR, so a flipped bit is caught exactly where the syndrome of that bit alone is not zero.
-/
namespace Sys2Proof.Machine

/-! ### XOR over a list of offsets -/

theorem xorBytes_map_xor {α : Type} (l : List α) (f g : α → Byte) :
    xorBytes (l.map fun a => f a ^^^ g a) = xorBytes (l.map f) ^^^ xorBytes (l.map g) := by
  induction l with
  | nil => simp
  | cons a l ih =>
    simp only [List.map_cons, xorBytes_cons, ih]
    ac_rfl

theorem xorBytes_map_zero {α : Type} {l : List α} {f : α → Byte} (h : ∀ a ∈ l, f a = 0x00#8) :
    xorBytes (l.map f) = 0x00#8 := by
  induction l with
  | nil => rfl
  | cons a l ih =>
    rw [List.forall_mem_cons] at h
    simp [h.1, ih h.2]

/-- Where only one element gives a byte that is not zero, that byte is the XOR. -/
theorem xorBytes_map_single {α : Type} {l : List α} {f : α → Byte} {a : α} (hnodup : l.Nodup) (ha : a ∈ l)
    (hzero : ∀ b ∈ l, b ≠ a → f b = 0x00#8) : xorBytes (l.map f) = f a := by
  obtain ⟨pre, post, rfl⟩ := List.append_of_mem ha
  obtain ⟨hpost, hrest⟩ := List.nodup_cons.mp (List.nodup_middle.mp hnodup)
  have hothers : ∀ b ∈ pre ++ post, f b = 0x00#8 := fun b hb =>
    hzero b (by simp only [List.mem_append, List.mem_cons] at hb ⊢; tauto) (by rintro rfl; exact hpost hb)
  rw [List.forall_mem_append] at hothers
  simp [xorBytes_map_zero hothers.1, xorBytes_map_zero hothers.2]

theorem xorRange_xor (f g : Nat → Byte) (a b : Nat) :
    xorRange (fun n => f n ^^^ g n) a b = xorRange f a b ^^^ xorRange g a b :=
  xorBytes_map_xor _ _ _

theorem xorRange_congr {f g : Nat → Byte} {a b : Nat} (h : ∀ k, a ≤ k → k ≤ b → f k = g k) :
    xorRange f a b = xorRange g a b := by
  rw [xorRange, xorRange, bytesFrom_eq_map_range', bytesFrom_eq_map_range']
  congr 1
  apply List.map_congr_left
  intro k hk
  obtain ⟨hlow, hhigh⟩ := List.mem_range'_1.mp hk
  exact h k hlow (by omega)

/-- The whole of SB, as the list of its 512 bytes. -/
theorem xorRange_sector (read : Nat → Byte) : xorRange read 0 511 = xorBytes ((List.range 512).map read) := by
  simp [xorRange, bytesFrom]

/-! ### The reconstructed bytes -/

/-- Byte `n` of the temporary T of SECTOR_DECODE: byte 0 is the odd byte, byte `n + 1` is byte `n % 7` of the group
`n / 7` (R83, R88). -/
def decodedByte (read : Nat → Byte) : Nat → Byte
  | 0 => unpack (read 14) 0 (read 15)
  | n + 1 => unpack (read (16 + 8 * (n / 7))) (n % 7) (read (17 + 8 * (n / 7) + n % 7))

theorem decodedByte_zero (read : Nat → Byte) : decodedByte read 0 = unpack (read 14) 0 (read 15) := rfl

theorem decodedByte_group (read : Nat → Byte) (g : Nat) {i : Nat} (hi : i < 7) :
    decodedByte read (1 + 7 * g + i) = unpack (read (16 + 8 * g)) i (read (17 + 8 * g + i)) := by
  have hsucc : 1 + 7 * g + i = (7 * g + i) + 1 := by omega
  have hgroup : (7 * g + i) / 7 = g := by omega
  have hplace : (7 * g + i) % 7 = i := by omega
  rw [hsucc, decodedByte, hgroup, hplace]

/-- Every byte of the sector is the odd byte or a byte of one of the 73 groups (R83). -/
theorem sector_offset_cases {n : Nat} (hn : n < 512) :
    n = 0 ∨ ∃ g i, g < 73 ∧ i < 7 ∧ n = 1 + 7 * g + i := by
  obtain rfl | hpos := Nat.eq_zero_or_pos n
  · exact .inl rfl
  · exact .inr ⟨(n - 1) / 7, (n - 1) % 7, by omega, by omega, by omega⟩

theorem unpackPayload_sector (read : Nat → Byte) :
    unpackPayload read 1 73 = (List.range 512).map (decodedByte read) := by
  apply List.ext_getElem?
  intro n
  by_cases hn : n < 512
  · rw [List.getElem?_map, List.getElem?_range hn, Option.map_some]
    obtain rfl | ⟨g, i, hg, hi, rfl⟩ := sector_offset_cases hn
    · exact unpackPayload_getElem?_odd read 1 73 0 (by decide)
    · rw [unpackPayload_getElem?_group read 1 73 g i hg hi, decodedByte_group read g hi]
  · rw [List.getElem?_eq_none (by simp; omega), List.getElem?_eq_none (by simp; omega)]

theorem decodedSector_eq_map (s : State) :
    decodedSector s = (List.range 512).map (decodedByte (s.byteAt .pb)) := unpackPayload_sector _

theorem decodedSector_getD (s : State) {n : Nat} (hn : n < 512) :
    (decodedSector s).getD n 0x00#8 = decodedByte (s.byteAt .pb) n := by
  rw [decodedSector_eq_map, List.getD_eq_getElem?_getD, List.getElem?_map, List.getElem?_range hn]
  rfl

/-! ### The comparison of R88 -/

/-- The XOR of the computed and the transmitted checksum of the sector packet that `read` gives (R88). -/
def syndrome (read : Nat → Byte) : Byte :=
  xorBytes ((List.range 512).map (decodedByte read)) ^^^ xorRange read 7 13 ^^^
    csumUnpair (read 600) (read 601)

theorem sectorAgrees_iff (s : State) : sectorAgrees s = true ↔ syndrome (s.byteAt .pb) = 0x00#8 := by
  rw [sectorAgrees, matchFlag_eq_true_iff, syndrome, decodedSector_eq_map]
  exact BitVec.xor_eq_zero_iff.symm

/-- What SECTOR_DECODE does where its packet fits (R88). -/
theorem exec_sectorDecode {s : State} (hcap : 602 ≤ s.cap) :
    exec .sectorDecode s = .next (if sectorAgrees s then s.keepSector else s.loseSector) :=
  congrArg Host.Outcome.next (State.ifCapacity_of_le _ hcap)

theorem exec_sectorDecode_of_agrees {s : State} (hcap : 602 ≤ s.cap) (h : syndrome (s.byteAt .pb) = 0x00#8) :
    exec .sectorDecode s = .next s.keepSector := by
  rw [exec_sectorDecode hcap, if_pos ((sectorAgrees_iff s).mpr h)]

theorem exec_sectorDecode_of_disagrees {s : State} (hcap : 602 ≤ s.cap) (h : syndrome (s.byteAt .pb) ≠ 0x00#8) :
    exec .sectorDecode s = .next s.loseSector := by
  rw [exec_sectorDecode hcap, if_neg (mt (sectorAgrees_iff s).mp h)]

theorem exec_sectorDecode_capacity {s : State} (hcap : s.cap < 602) :
    exec .sectorDecode s = .next (s.raise .capacityFault) :=
  congrArg Host.Outcome.next (State.ifCapacity_of_lt _ hcap)

/-- The three outcomes of SECTOR_DECODE (R88, R97). -/
theorem exec_sectorDecode_cases {s t : State} (h : exec .sectorDecode s = .next t) :
    (s.cap < 602 ∧ t = s.raise .capacityFault) ∨
    (602 ≤ s.cap ∧ syndrome (s.byteAt .pb) = 0x00#8 ∧ t = s.keepSector) ∨
    (602 ≤ s.cap ∧ syndrome (s.byteAt .pb) ≠ 0x00#8 ∧ t = s.loseSector) := by
  obtain hcap | hcap := Nat.lt_or_ge s.cap 602
  · rw [exec_sectorDecode_capacity hcap] at h
    injection h with h
    exact .inl ⟨hcap, h.symm⟩
  by_cases hzero : syndrome (s.byteAt .pb) = 0x00#8
  · rw [exec_sectorDecode_of_agrees hcap hzero] at h
    injection h with h
    exact .inr (.inl ⟨hcap, hzero, h.symm⟩)
  · rw [exec_sectorDecode_of_disagrees hcap hzero] at h
    injection h with h
    exact .inr (.inr ⟨hcap, hzero, h.symm⟩)

/-- SB after a match: the reconstructed bytes, and nothing else changed (R88). -/
theorem State.byteAt_keepSector_sb (s : State) (k : Nat) :
    s.keepSector.byteAt .sb k = if k < 512 then decodedByte (s.byteAt .pb) k else s.byteAt .sb k := by
  rw [State.keepSector, State.byteAt_deliver, State.byteAt_writeBytes]
  by_cases hk : k < 512
  · simp only [Nat.zero_le, decodedSector_length, Nat.zero_add, hk, and_self, if_true, Nat.sub_zero]
    exact decodedSector_getD s hk
  · simp [hk]

/-- SB after a mismatch: nothing changed beyond the 512 bytes (R88). -/
theorem State.byteAt_loseSector_sb (s : State) {k : Nat} (hk : 511 < k) :
    s.loseSector.byteAt .sb k = s.byteAt .sb k := by
  have hsame : s.loseSector.byteAt .sb k = (s.writeBytes .sb 0 s.mismatchedSector).byteAt .sb k := rfl
  rw [hsame, State.byteAt_writeBytes, if_neg (by simp; omega)]

/-! ### The bits that SECTOR_DECODE reads -/

/-- Two contents of PB agree in every bit that R88 reads. -/
structure SameReadBits (f g : Nat → Byte) : Prop where
  header : ∀ k, 7 ≤ k → k ≤ 13 → f k = g k
  oddCarrier : (f 14).getLsbD 6 = (g 14).getLsbD 6
  payload : ∀ k j, 15 ≤ k → k ≤ 599 → j < 7 → (f k).getLsbD j = (g k).getLsbD j
  pair : ∀ k j, 600 ≤ k → k ≤ 601 → j < 4 → (f k).getLsbD (2 * j) = (g k).getLsbD (2 * j)

/-- `unpack` looks at one bit of the carrier and at seven of the data byte (R53). -/
theorem unpack_congr {m m' d d' : Byte} {i : Nat} (hi : i < 7) (hm : m.getLsbD (6 - i) = m'.getLsbD (6 - i))
    (hd : ∀ j, j < 7 → d.getLsbD j = d'.getLsbD j) : unpack m i d = unpack m' i d' := by
  apply BitVec.eq_of_getLsbD_eq
  intro j hj
  obtain hlow | rfl := Nat.lt_or_eq_of_le (Nat.le_of_lt_succ hj)
  · rw [unpack_getLsbD_of_lt _ _ _ hlow, unpack_getLsbD_of_lt _ _ _ hlow, hd j hlow]
  · rw [unpack_getLsbD_seven _ _ (by omega), unpack_getLsbD_seven _ _ (by omega), hm]

theorem SameReadBits.decodedByte_eq {f g : Nat → Byte} (h : SameReadBits f g) {n : Nat} (hn : n < 512) :
    decodedByte f n = decodedByte g n := by
  obtain rfl | ⟨k, i, hk, hi, rfl⟩ := sector_offset_cases hn
  · exact unpack_congr (by decide) h.oddCarrier fun j hj => h.payload 15 j (by decide) (by decide) hj
  · rw [decodedByte_group f k hi, decodedByte_group g k hi]
    exact unpack_congr hi (h.payload _ _ (by omega) (by omega) (by omega)) fun j hj =>
      h.payload _ j (by omega) (by omega) hj

theorem SameReadBits.syndrome_eq {f g : Nat → Byte} (h : SameReadBits f g) : syndrome f = syndrome g := by
  have hsector : (List.range 512).map (decodedByte f) = (List.range 512).map (decodedByte g) :=
    List.map_congr_left fun n hn => h.decodedByte_eq (List.mem_range.mp hn)
  have hpair : csumUnpair (f 600) (f 601) = csumUnpair (g 600) (g 601) :=
    csumUnpair_congr (fun j hj => h.pair 600 j (by decide) (by decide) hj)
      fun j hj => h.pair 601 j (by decide) (by decide) hj
  rw [syndrome, syndrome, hsector, hpair, xorRange_congr h.header]

/-! ### The syndrome is linear -/

theorem unpack_xor (m m' d d' : Byte) {i : Nat} (hi : i < 7) :
    unpack (m ^^^ m') i (d ^^^ d') = unpack m i d ^^^ unpack m' i d' := by
  apply BitVec.eq_of_getLsbD_eq
  intro j hj
  rw [BitVec.getLsbD_xor]
  obtain hlow | rfl := Nat.lt_or_eq_of_le (Nat.le_of_lt_succ hj)
  · simp only [unpack_getLsbD_of_lt _ _ _ hlow, BitVec.getLsbD_xor]
  · simp only [unpack_getLsbD_seven _ _ (Nat.le_of_lt_succ hi), BitVec.getLsbD_xor]

theorem csumUnpair_xor (w1 w2 v1 v2 : Byte) :
    csumUnpair (w1 ^^^ v1) (w2 ^^^ v2) = csumUnpair w1 w2 ^^^ csumUnpair v1 v2 := by
  apply eq_of_even_odd_bits
  intro j hj
  simp only [BitVec.getLsbD_xor, csumUnpair_bits _ _ hj, and_self]

theorem decodedByte_xor (f g : Nat → Byte) (n : Nat) :
    decodedByte (fun k => f k ^^^ g k) n = decodedByte f n ^^^ decodedByte g n := by
  cases n with
  | zero => exact unpack_xor _ _ _ _ (by decide)
  | succ n => exact unpack_xor _ _ _ _ (Nat.mod_lt n (by decide))

theorem syndrome_xor (f g : Nat → Byte) :
    syndrome (fun k => f k ^^^ g k) = syndrome f ^^^ syndrome g := by
  have hsector : (List.range 512).map (decodedByte fun k => f k ^^^ g k) =
      (List.range 512).map fun n => decodedByte f n ^^^ decodedByte g n :=
    List.map_congr_left fun n _ => decodedByte_xor f g n
  have regroup : ∀ a a' b b' c c' : Byte,
      a ^^^ a' ^^^ (b ^^^ b') ^^^ (c ^^^ c') = a ^^^ b ^^^ c ^^^ (a' ^^^ b' ^^^ c') := by
    intros
    ac_rfl
  rw [syndrome, hsector, xorBytes_map_xor, xorRange_xor, csumUnpair_xor, regroup]
  rfl

end Sys2Proof.Machine

/-!
What SECTOR_ENCODE leaves in PB (R55, R85), and SECTOR_DECODE on it (R86). The one idea: `SectorWire` says which byte
stands at each offset of the packet; with it the reconstructed bytes are the sector and the syndrome is zero.
-/
namespace Sys2Proof.Machine

/-- The seven original bytes of group `g` (R83). -/
def sectorGroup (read : Nat → Byte) (g : Nat) : List Byte := (List.range 7).map fun i => read (1 + 7 * g + i)

/-- The checksum that SECTOR_ENCODE puts into its pair (R85). -/
def sectorChecksum (src : Byte) (read : Nat → Byte) : Byte :=
  xorRange read 0 511 ^^^ headerXor (header src typeData statFixed 1 73)

theorem sectorGroup_getElem? (read : Nat → Byte) (g : Nat) {i : Nat} (hi : i < 7) :
    (sectorGroup read g)[i]? = some (read (1 + 7 * g + i)) := by simp [sectorGroup, hi]

theorem sectorGroup_length (read : Nat → Byte) (g : Nat) : (sectorGroup read g).length = 7 := by
  simp [sectorGroup]

theorem packSection_sectorGroup (read : Nat → Byte) (g : Nat) :
    packSection (sectorGroup read g) =
      carrier (sectorGroup read g) :: (sectorGroup read g).map (· ||| 0x80#8) := rfl

/-! ### The packet, offset by offset -/

theorem sectorPacket_getElem?_oddCarrier (src : Byte) (read : Nat → Byte) :
    (sectorPacket src read)[14]? = some (carrier [read 0]) :=
  sectorPacket_getElem?_payload src read 0 (by decide)

theorem sectorPacket_getElem?_oddByte (src : Byte) (read : Nat → Byte) :
    (sectorPacket src read)[15]? = some (read 0 ||| 0x80#8) :=
  sectorPacket_getElem?_payload src read 1 (by decide)

/-- The packet at byte `j` of the section of group `g`, its carrier at `j = 0` (R84). -/
theorem sectorPacket_getElem?_section (src : Byte) (read : Nat → Byte) {g j : Nat} (hg : g < 73) (hj : j < 8) :
    (sectorPacket src read)[16 + 8 * g + j]? = (packSection (sectorGroup read g))[j]? := by
  have hoffset : 16 + 8 * g + j = 14 + (2 + 8 * g + j) := by omega
  rw [hoffset, sectorPacket_getElem?_payload src read _ (by omega)]
  exact sectorPayload_getElem? read g j hg hj

theorem sectorPacket_getElem?_groupCarrier (src : Byte) (read : Nat → Byte) {g : Nat} (hg : g < 73) :
    (sectorPacket src read)[16 + 8 * g]? = some (carrier (sectorGroup read g)) :=
  sectorPacket_getElem?_section src read hg (by decide : 0 < 8)

theorem sectorPacket_getElem?_groupByte (src : Byte) (read : Nat → Byte) {g i : Nat} (hg : g < 73) (hi : i < 7) :
    (sectorPacket src read)[17 + 8 * g + i]? = some (read (1 + 7 * g + i) ||| 0x80#8) := by
  have hoffset : 17 + 8 * g + i = 16 + 8 * g + (i + 1) := by omega
  rw [hoffset, sectorPacket_getElem?_section src read hg (by omega), packSection_sectorGroup,
    List.getElem?_cons_succ, List.getElem?_map, sectorGroup_getElem? read g hi]
  rfl

/-- PB as `read` gives it holds the sector packet of `sector` (R55). -/
structure SectorWire (src : Byte) (sector read : Nat → Byte) : Prop where
  header : ∀ k b, (header src typeData statFixed 1 73)[k]? = some b → read k = b
  oddCarrier : read 14 = carrier [sector 0]
  oddByte : read 15 = sector 0 ||| 0x80#8
  groupCarrier : ∀ g, g < 73 → read (16 + 8 * g) = carrier (sectorGroup sector g)
  groupByte : ∀ g i, g < 73 → i < 7 → read (17 + 8 * g + i) = sector (1 + 7 * g + i) ||| 0x80#8
  pairFst : read 600 = (csumPair (sectorChecksum src sector)).1
  pairSnd : read 601 = (csumPair (sectorChecksum src sector)).2
  endMark : read 602 = endMarker
  term : read 603 = terminator

theorem header_offset_lt {src type stat b : Byte} {odd grp k : Nat}
    (h : (header src type stat odd grp)[k]? = some b) : k < 14 := (List.getElem?_eq_some_iff.mp h).1

/-- After SECTOR_ENCODE the packet stands in PB (R85). -/
theorem sectorWire_emitPacket (src : Byte) (sector : Nat → Byte) (s : State) :
    SectorWire src sector ((s.emitPacket (sectorPacket src sector)).byteAt .pb) where
  header k b hk := State.byteAt_emitPacket_of_getElem? <| by
    rwa [sectorPacket_getElem?_header src sector k (header_offset_lt hk)]
  oddCarrier := State.byteAt_emitPacket_of_getElem? (sectorPacket_getElem?_oddCarrier src sector)
  oddByte := State.byteAt_emitPacket_of_getElem? (sectorPacket_getElem?_oddByte src sector)
  groupCarrier _ hg := State.byteAt_emitPacket_of_getElem? (sectorPacket_getElem?_groupCarrier src sector hg)
  groupByte _ _ hg hi := State.byteAt_emitPacket_of_getElem? (sectorPacket_getElem?_groupByte src sector hg hi)
  pairFst := State.byteAt_emitPacket_of_getElem? (sectorPacket_getElem?_trailer src sector 0)
  pairSnd := State.byteAt_emitPacket_of_getElem? (sectorPacket_getElem?_trailer src sector 1)
  endMark := State.byteAt_emitPacket_of_getElem? (sectorPacket_getElem?_trailer src sector 2)
  term := State.byteAt_emitPacket_of_getElem? (sectorPacket_getElem?_trailer src sector 3)

/-! ### Decoding the packet -/

/-- The reconstructed bytes of the packet are the sector (R86). -/
theorem SectorWire.decodedByte_eq {src : Byte} {sector read : Nat → Byte} (h : SectorWire src sector read)
    {n : Nat} (hn : n < 512) : decodedByte read n = sector n := by
  obtain rfl | ⟨g, i, hg, hi, rfl⟩ := sector_offset_cases hn
  · rw [decodedByte_zero, h.oddCarrier, h.oddByte]
    exact unpack_carrier (by simp) rfl
  · rw [decodedByte_group read g hi, h.groupCarrier g hg, h.groupByte g i hg hi]
    exact unpack_carrier (Nat.le_of_eq (sectorGroup_length sector g)) (sectorGroup_getElem? sector g hi)

/-- The header bytes at 7 to 13 that the decoder reads are those the encoder's checksum covers (R64). -/
theorem SectorWire.xorRange_header {src : Byte} {sector read : Nat → Byte} (h : SectorWire src sector read) :
    xorRange read 7 13 = headerXor (Machine.header src typeData statFixed 1 73) := by
  have hbyte : ∀ k, k < 14 → (Machine.header src typeData statFixed 1 73)[k]? = some (read k) := by
    intro k hk
    obtain ⟨b, hb⟩ : ∃ b, (Machine.header src typeData statFixed 1 73)[k]? = some b :=
      ⟨_, List.getElem?_eq_getElem hk⟩
    rw [hb, h.header k b hb]
  have hbytes : bytesFrom read 7 13 = (Machine.header src typeData statFixed 1 73).drop 7 := by
    apply List.ext_getElem?
    intro k
    rw [List.getElem?_drop]
    by_cases hk : k < 7
    · rw [hbyte _ (by omega)]
      simp [bytesFrom, hk]
    · rw [List.getElem?_eq_none (by simp; omega), List.getElem?_eq_none (by simp; omega)]
  rw [xorRange, hbytes, headerXor]

/-- The computed and the transmitted checksum of the packet agree (R86). -/
theorem SectorWire.syndrome_eq_zero {src : Byte} {sector read : Nat → Byte} (h : SectorWire src sector read) :
    syndrome read = 0x00#8 := by
  have hsector : (List.range 512).map (decodedByte read) = (List.range 512).map sector :=
    List.map_congr_left fun n hn => h.decodedByte_eq (List.mem_range.mp hn)
  rw [syndrome, hsector, h.xorRange_header, h.pairFst, h.pairSnd, csumUnpair_csumPair, sectorChecksum,
    xorRange_sector, BitVec.xor_self]

/-- What SECTOR_ENCODE does where its packet fits (R85). -/
theorem exec_sectorEncode {s : State} (src : Byte) (hcap : 604 ≤ s.cap) :
    exec (.sectorEncode src) s = .next (s.emitPacket (sectorPacket src (s.byteAt .sb))) := by
  rw [exec_of_packetOf rfl, State.ifCapacity_of_le _ hcap]

/-- What a completed SECTOR_ENCODE leaves: its packet in PB, and the capacity. -/
theorem sectorWire_of_exec {src : Byte} {s t : State} (hcap : 604 ≤ s.cap)
    (hexec : exec (.sectorEncode src) s = .next t) :
    SectorWire src (s.byteAt .sb) (t.byteAt .pb) ∧ t.cap = s.cap := by
  rw [exec_sectorEncode src hcap] at hexec
  injection hexec with ht
  subst ht
  exact ⟨sectorWire_emitPacket src _ s, rfl⟩

/-- A state that holds a sector packet, up to bits that are not read, is decoded to that sector (R86, R89). -/
theorem exec_sectorDecode_of_sameReadBits {src : Byte} {sector read : Nat → Byte} {s : State}
    (hcap : 602 ≤ s.cap) (hwire : SectorWire src sector read) (hsame : SameReadBits (s.byteAt .pb) read) :
    exec .sectorDecode s = .next s.keepSector ∧ ∀ k, k < 512 → s.keepSector.byteAt .sb k = sector k := by
  constructor
  · exact exec_sectorDecode_of_agrees hcap (hsame.syndrome_eq.trans hwire.syndrome_eq_zero)
  · intro k hk
    rw [State.byteAt_keepSector_sb, if_pos hk, hsame.decodedByte_eq hk, hwire.decodedByte_eq hk]

theorem SameReadBits.refl (f : Nat → Byte) : SameReadBits f f :=
  ⟨fun _ _ _ => rfl, rfl, fun _ _ _ _ _ => rfl, fun _ _ _ _ _ => rfl⟩

/-- Settles O41: the packet that SECTOR_ENCODE left is decoded to the sector, whatever SB holds by then. -/
theorem sectorRoundTrip : Obligations.SectorRoundTrip := by
  intro src s t garbage hcap hexec
  obtain ⟨hwire, htcap⟩ := sectorWire_of_exec hcap hexec
  obtain ⟨hdecode, hsector⟩ := exec_sectorDecode_of_sameReadBits (s := { t with sb := garbage })
    (by show 602 ≤ t.cap; omega) hwire (SameReadBits.refl _)
  exact ⟨_, hdecode, rfl, rfl, hsector, rfl⟩

/-! ### The layout of the packet -/

/-- The carrier of one byte has bit 6 for its bit 7 and nothing below (R55). -/
theorem carrier_singleton (b : Byte) : carrier [b] = if b.getLsbD 7 then 0xC0#8 else 0x80#8 := by
  revert b
  decide

/-- Settles O38, by the bytes of the packet and the source of each bit of a carrier. -/
theorem sectorEncodePacksTheSector : Obligations.SectorEncodePacksTheSector := by
  intro src s hcap
  have hwire := sectorWire_emitPacket src (s.byteAt .sb) s
  refine ⟨_, exec_sectorEncode src hcap, ?_, hwire.oddByte, fun g hg => ⟨?_, fun i hi => ⟨?_, ?_⟩⟩⟩
  · rw [hwire.oddCarrier, carrier_singleton]
  · rw [hwire.groupCarrier g hg, carrier_getLsbD_seven]
  · rw [hwire.groupCarrier g hg]
    exact carrier_getLsbD_of_getElem? (Nat.le_of_eq (sectorGroup_length _ g)) (sectorGroup_getElem? _ g hi)
  · exact hwire.groupByte g i hg hi

/-- DEST_HOST and AUX cancel, so the XOR of a header is that of its five other bytes at 7 to 13 (R46, R65). -/
theorem headerXor_header (src type stat : Byte) (odd grp : Nat) :
    headerXor (header src type stat odd grp) = src ^^^ type ^^^ stat ^^^ (countField odd ^^^ countField grp) := by
  have hbytes : headerXor (header src type stat odd grp) =
      xorBytes [destHost, src, type, auxCode, stat, countField odd, countField grp] := rfl
  have hcancel : ∀ d a b c x y : Byte, d ^^^ (a ^^^ (b ^^^ (d ^^^ (c ^^^ (x ^^^ y))))) =
      (d ^^^ d) ^^^ (a ^^^ b ^^^ c ^^^ (x ^^^ y)) := by
    intros
    ac_rfl
  rw [hbytes]
  simp only [xorBytes_cons, xorBytes_nil, BitVec.xor_zero]
  exact (hcancel destHost src type stat _ _).trans (by rw [BitVec.xor_self, BitVec.zero_xor])

theorem headerXor_sector (src : Byte) : headerXor (header src typeData statFixed 1 73) = src ^^^ 0x4A#8 := by
  rw [headerXor_header, BitVec.xor_assoc, BitVec.xor_assoc]
  rfl

/-- The checksum of the sector packet, as one XOR that starts from the header's (R85). -/
theorem sectorChecksum_eq_foldl (src : Byte) (read : Nat → Byte) :
    sectorChecksum src read = ((List.range 512).map read).foldl (· ^^^ ·) (src ^^^ 0x4A#8) := by
  rw [foldl_xor, ← xorRange_sector, sectorChecksum, headerXor_sector, BitVec.xor_comm]

/-- Settles O39, by the header, the trailer and the frame of the emitted packet. -/
theorem sectorEncodeWritesHeaderAndTrailer : Obligations.SectorEncodeWritesHeaderAndTrailer := by
  intro src s hcap
  have hwire := sectorWire_emitPacket src (s.byteAt .sb) s
  refine ⟨_, exec_sectorEncode src hcap, hwire.header, ?_, hwire.endMark, hwire.term, fun k hk => ?_, rfl⟩
  · intro c hc
    have hchecksum : sectorChecksum src (s.byteAt .sb) = c := (sectorChecksum_eq_foldl src _).trans hc.symm
    rw [hwire.pairFst, hwire.pairSnd, hchecksum, csumPair_eq]
    exact ⟨rfl, rfl⟩
  · rw [State.byteAt_emitPacket_pb, sectorPacket_length, if_neg (by omega)]

end Sys2Proof.Machine

/-!
SECTOR_DECODE on any packet (R88), and on the packet of SECTOR_ENCODE with one bit flipped (R89). The idea: the bytes
of `flipped` PB are those of PB XORed with a `single` bit, so by linearity its syndrome is that of the single bit.
-/
namespace Sys2Proof.Machine

/-! ### Any packet -/

/-- A function that meets the reconstruction formulas of R88 gives the reconstructed bytes. -/
theorem decodedByte_unique {read orig : Nat → Byte}
    (hodd : orig 0 = ((read 14 <<< 1) &&& 0x80#8) ||| (read 15 &&& 0x7F#8))
    (hgroup : ∀ g i, g < 73 → i < 7 → orig (1 + 7 * g + i) =
      ((read (16 + 8 * g) <<< (i + 1)) &&& 0x80#8) ||| (read (17 + 8 * g + i) &&& 0x7F#8))
    {n : Nat} (hn : n < 512) : decodedByte read n = orig n := by
  obtain rfl | ⟨g, i, hg, hi, rfl⟩ := sector_offset_cases hn
  · exact hodd.symm
  · rw [decodedByte_group read g hi, hgroup g i hg hi]
    rfl

/-- The comparison of R88, with both checksums written out. -/
theorem sectorAgrees_iff_of_decodedByte_eq {s : State} {orig : Nat → Byte}
    (h : ∀ n, n < 512 → decodedByte (s.byteAt .pb) n = orig n) : sectorAgrees s = true ↔
      xorBytes ((List.range 512).map orig) ^^^ xorRange (s.byteAt .pb) 7 13 =
        csumUnpair (s.byteAt .pb 600) (s.byteAt .pb 601) := by
  have hsector : decodedSector s = (List.range 512).map orig := by
    rw [decodedSector_eq_map]
    exact List.map_congr_left fun n hn => h n (List.mem_range.mp hn)
  rw [sectorAgrees, matchFlag_eq_true_iff, hsector]

/-- Settles O42, by the two arms of SECTOR_DECODE and the formula of each reconstructed byte. -/
theorem sectorDecodeReconstructsAndCompares : Obligations.SectorDecodeReconstructsAndCompares := by
  intro s hcap
  refine ⟨_, exec_sectorDecode hcap, ?_, fun k hk => ?_, fun orig hodd hgroup => ?_⟩
  · split <;> rfl
  · split
    · rw [State.byteAt_keepSector_sb, if_neg (by omega)]
    · exact State.byteAt_loseSector_sb s hk
  · have hbytes : ∀ n, n < 512 → decodedByte (s.byteAt .pb) n = orig n :=
      fun n hn => decodedByte_unique hodd hgroup hn
    have hagrees := sectorAgrees_iff_of_decodedByte_eq hbytes
    split
    case isTrue hequal =>
      rw [if_pos (hagrees.mpr hequal)]
      exact ⟨rfl, fun k hk => by rw [State.byteAt_keepSector_sb, if_pos hk, hbytes k hk], rfl⟩
    case isFalse hdiffer =>
      rw [if_neg (mt hagrees.mp hdiffer)]
      exact ⟨rfl, rfl⟩

/-- Settles O43: both the syndrome and the reconstructed bytes are made of the bits that are read. -/
theorem sectorDecodeIgnoresUnreadBits : Obligations.SectorDecodeIgnoresUnreadBits := by
  intro s s' t t' hcap hcap' hheader hcarrier hpayload hpair hexec hexec'
  have hsame : SameReadBits (s.byteAt .pb) (s'.byteAt .pb) := ⟨hheader, hcarrier, hpayload, hpair⟩
  by_cases hzero : syndrome (s.byteAt .pb) = 0x00#8
  · have hzero' : syndrome (s'.byteAt .pb) = 0x00#8 := hsame.syndrome_eq.symm.trans hzero
    rw [exec_sectorDecode_of_agrees hcap hzero] at hexec
    rw [exec_sectorDecode_of_agrees hcap' hzero'] at hexec'
    injection hexec with ht
    injection hexec' with ht'
    subst ht ht'
    refine ⟨rfl, fun _ k hk => ?_⟩
    rw [State.byteAt_keepSector_sb, State.byteAt_keepSector_sb, if_pos hk, if_pos hk, hsame.decodedByte_eq hk]
  · have hzero' : syndrome (s'.byteAt .pb) ≠ 0x00#8 := fun h => hzero (hsame.syndrome_eq.trans h)
    rw [exec_sectorDecode_of_disagrees hcap hzero] at hexec
    rw [exec_sectorDecode_of_disagrees hcap' hzero'] at hexec'
    injection hexec with ht
    injection hexec' with ht'
    subst ht ht'
    exact ⟨rfl, fun hresult => absurd hresult (by simp)⟩

/-! ### One flipped bit -/

/-- The byte `e` at offset `k`, zero at every other offset. -/
def single (k : Nat) (e : Byte) (n : Nat) : Byte := if n = k then e else 0x00#8

@[simp] theorem single_self (k : Nat) (e : Byte) : single k e k = e := if_pos rfl

theorem single_of_ne {k n : Nat} (e : Byte) (h : n ≠ k) : single k e n = 0x00#8 := if_neg h

/-- PB after one of its bytes is XORed with `e`. -/
theorem State.byteAt_xorAt (s : State) (k : Nat) (e : Byte) :
    (s.writeBytes .pb k [s.byteAt .pb k ^^^ e]).byteAt .pb = fun n => s.byteAt .pb n ^^^ single k e n := by
  funext n
  rw [State.byteAt_writeBytes]
  by_cases hn : n = k
  · simp [hn]
  · rw [if_neg (by simp; omega), single_of_ne e hn, BitVec.xor_zero]

/-- Bit `j` of the byte 1 moved up by `i`. -/
theorem one_shiftLeft_getLsbD {i : Nat} (hi : i < 8) (j : Nat) :
    ((0x01#8 : Byte) <<< i).getLsbD j = decide (j = i) := by
  rw [BitVec.getLsbD_shiftLeft, BitVec.getLsbD_one]
  by_cases hj : j = i
  · simp [hj, hi]
  · by_cases hlt : j < i
    · simp [hlt, hj]
    · have hne : j - i ≠ 0 := by omega
      simp [hne, hj]

theorem one_shiftLeft_ne_zero {j : Nat} (hj : j < 8) : (0x01#8 : Byte) <<< j ≠ 0x00#8 := by
  intro h
  have hbit := one_shiftLeft_getLsbD hj j
  simp [h] at hbit

/-- What a single carrier bit unpacks to: bit `6 - i` of a carrier belongs to byte `i` (R53). -/
theorem unpack_carrierBit {i j : Nat} (hi : i < 7) (hj : j < 7) :
    unpack (0x01#8 <<< j) i 0x00#8 = if i = 6 - j then 0x80#8 else 0x00#8 := by
  have hall : ∀ i, i < 7 → ∀ j, j < 7 →
      unpack (0x01#8 <<< j) i 0x00#8 = if i = 6 - j then 0x80#8 else 0x00#8 := by decide
  exact hall i hi j hj

/-- What a single data bit unpacks to (R53). -/
theorem unpack_dataBit {i j : Nat} (hi : i < 7) (hj : j < 7) :
    unpack 0x00#8 i (0x01#8 <<< j) = 0x01#8 <<< j := by
  have hall : ∀ i, i < 7 → ∀ j, j < 7 → unpack 0x00#8 i (0x01#8 <<< j) = 0x01#8 <<< j := by decide
  exact hall i hi j hj

theorem unpack_zero {i : Nat} (hi : i < 7) : unpack 0x00#8 i 0x00#8 = 0x00#8 := by
  revert i
  decide

/-- A reconstructed byte is zero where neither its carrier nor its data byte is the single byte. -/
theorem decodedByte_single_of_ne {k : Nat} (e : Byte) {g i : Nat} (hi : i < 7) (hcarrier : 16 + 8 * g ≠ k)
    (hdata : 17 + 8 * g + i ≠ k) : decodedByte (single k e) (1 + 7 * g + i) = 0x00#8 := by
  rw [decodedByte_group _ g hi, single_of_ne e hcarrier, single_of_ne e hdata, unpack_zero hi]

/-- The byte of `f` at `n` is the only one below 512 that is not zero. -/
def OnlyAt (f : Nat → Byte) (n : Nat) : Prop :=
  n < 512 ∧ f n ≠ 0x00#8 ∧ ∀ m, m < 512 → m ≠ n → f m = 0x00#8

/-- A covered bit of the odd section reaches byte 0 alone. -/
theorem onlyAt_oddSection {k j : Nat} (hk : k = 14 ∧ j = 6 ∨ k = 15 ∧ j < 7) :
    OnlyAt (decodedByte (single k (0x01#8 <<< j))) 0 := by
  refine ⟨by decide, ?_, fun m hm hne => ?_⟩
  · obtain ⟨rfl, rfl⟩ | ⟨rfl, hj⟩ := hk
    · decide
    · rw [decodedByte_zero, single_self, single_of_ne _ (by decide), unpack_dataBit (by decide) hj]
      exact one_shiftLeft_ne_zero (by omega)
  · obtain rfl | ⟨g, i, _, hi, rfl⟩ := sector_offset_cases hm
    · exact absurd rfl hne
    · exact decodedByte_single_of_ne _ hi (by omega) (by omega)

/-- A covered bit of a group's carrier reaches one byte of the group. -/
theorem onlyAt_groupCarrier {g j : Nat} (hg : g < 73) (hj : j < 7) :
    OnlyAt (decodedByte (single (16 + 8 * g) (0x01#8 <<< j))) (1 + 7 * g + (6 - j)) := by
  have hgroup : ∀ i, i < 7 → decodedByte (single (16 + 8 * g) (0x01#8 <<< j)) (1 + 7 * g + i) =
      if i = 6 - j then 0x80#8 else 0x00#8 := fun i hi => by
    rw [decodedByte_group _ g hi, single_self, single_of_ne _ (by omega), unpack_carrierBit hi hj]
  refine ⟨by omega, ?_, fun m hm hne => ?_⟩
  · rw [hgroup _ (by omega), if_pos rfl]
    decide
  · obtain rfl | ⟨g', i, _, hi, rfl⟩ := sector_offset_cases hm
    · rw [decodedByte_zero, single_of_ne _ (by omega), single_of_ne _ (by omega), unpack_zero (by decide)]
    · by_cases hsame : g' = g
      · subst hsame
        rw [hgroup i hi, if_neg (by omega)]
      · exact decodedByte_single_of_ne _ hi (by omega) (by omega)

/-- A covered bit of a group's data byte reaches that byte alone. -/
theorem onlyAt_groupByte {g i j : Nat} (hg : g < 73) (hi : i < 7) (hj : j < 7) :
    OnlyAt (decodedByte (single (17 + 8 * g + i) (0x01#8 <<< j))) (1 + 7 * g + i) := by
  refine ⟨by omega, ?_, fun m hm hne => ?_⟩
  · rw [decodedByte_group _ g hi, single_self, single_of_ne _ (by omega), unpack_dataBit hi hj]
    exact one_shiftLeft_ne_zero (by omega)
  · obtain rfl | ⟨g', i', _, hi', rfl⟩ := sector_offset_cases hm
    · rw [decodedByte_zero, single_of_ne _ (by omega), single_of_ne _ (by omega), unpack_zero (by decide)]
    · exact decodedByte_single_of_ne _ hi' (by omega) (by omega)

/-- Every wire byte of the payload is in the odd section, or is the carrier or a data byte of a group (R84). -/
theorem onlyAt_payload {k j : Nat} (hk : k = 14 ∧ j = 6 ∨ 15 ≤ k ∧ k ≤ 599 ∧ j < 7) :
    ∃ n, OnlyAt (decodedByte (single k (0x01#8 <<< j))) n := by
  obtain hodd | ⟨hlow, hhigh, hj⟩ := hk
  · exact ⟨0, onlyAt_oddSection (.inl hodd)⟩
  · obtain rfl | hgroups := Nat.eq_or_lt_of_le hlow
    · exact ⟨0, onlyAt_oddSection (.inr ⟨rfl, hj⟩)⟩
    · obtain hcarrier | hdata := Nat.eq_zero_or_pos ((k - 16) % 8)
      · have hplace : k = 16 + 8 * ((k - 16) / 8) := by omega
        rw [hplace]
        exact ⟨_, onlyAt_groupCarrier (by omega) hj⟩
      · have hplace : k = 17 + 8 * ((k - 16) / 8) + ((k - 16) % 8 - 1) := by omega
        rw [hplace]
        exact ⟨_, onlyAt_groupByte (by omega) (by omega) hj⟩

theorem xorBytes_of_onlyAt {f : Nat → Byte} {n : Nat} (h : OnlyAt f n) :
    xorBytes ((List.range 512).map f) = f n := by
  obtain ⟨hn, _, hzero⟩ := h
  exact xorBytes_map_single List.nodup_range (List.mem_range.mpr hn) fun m hm => hzero m (List.mem_range.mp hm)

/-! The three parts of the syndrome of a single byte. -/

theorem sectorXor_single_of_not_payload {k : Nat} (e : Byte) (hk : k < 14 ∨ 599 < k) :
    xorBytes ((List.range 512).map (decodedByte (single k e))) = 0x00#8 := by
  apply xorBytes_map_zero
  intro n hn
  obtain rfl | ⟨g, i, hg, hi, rfl⟩ := sector_offset_cases (List.mem_range.mp hn)
  · rw [decodedByte_zero, single_of_ne _ (by omega), single_of_ne _ (by omega), unpack_zero (by decide)]
  · exact decodedByte_single_of_ne _ hi (by omega) (by omega)

theorem headerXor_single (k : Nat) (e : Byte) :
    xorRange (single k e) 7 13 = if 7 ≤ k ∧ k ≤ 13 then e else 0x00#8 := by
  rw [xorRange, bytesFrom_eq_map_range']
  split
  case isTrue hin =>
    rw [xorBytes_map_single (a := k) List.nodup_range' (List.mem_range'_1.mpr (by omega))
      fun n _ hn => single_of_ne e hn, single_self]
  case isFalse hout =>
    exact xorBytes_map_zero fun n hn => single_of_ne e (by have := List.mem_range'_1.mp hn; omega)

theorem pairXor_single_of_lt {k : Nat} (e : Byte) (hk : k < 600) :
    csumUnpair (single k e 600) (single k e 601) = 0x00#8 := by
  rw [single_of_ne e (by omega), single_of_ne e (by omega)]
  rfl

theorem syndrome_single_header {k : Nat} (e : Byte) (hk : 7 ≤ k ∧ k ≤ 13) : syndrome (single k e) = e := by
  rw [syndrome, sectorXor_single_of_not_payload e (.inl (by omega)), headerXor_single, if_pos hk,
    pairXor_single_of_lt e (by omega), BitVec.xor_zero, BitVec.zero_xor]

theorem syndrome_single_payload {k : Nat} (e : Byte) (hk : 14 ≤ k ∧ k ≤ 599) :
    syndrome (single k e) = xorBytes ((List.range 512).map (decodedByte (single k e))) := by
  rw [syndrome, headerXor_single, if_neg (by omega), pairXor_single_of_lt e (by omega), BitVec.xor_zero,
    BitVec.xor_zero]

theorem syndrome_single_pair {k : Nat} (e : Byte) (hk : 599 < k) :
    syndrome (single k e) = csumUnpair (single k e 600) (single k e 601) := by
  rw [syndrome, sectorXor_single_of_not_payload e (.inr hk), headerXor_single, if_neg (by omega), BitVec.xor_zero,
    BitVec.zero_xor]

/-- The pair carries its bits 6, 4, 2, 0 (R70). -/
theorem csumUnpair_evenBit_ne_zero {j : Nat} (hj : j = 0 ∨ j = 2 ∨ j = 4 ∨ j = 6) :
    csumUnpair (0x01#8 <<< j) 0x00#8 ≠ 0x00#8 ∧ csumUnpair 0x00#8 (0x01#8 <<< j) ≠ 0x00#8 := by
  obtain rfl | rfl | rfl | rfl := hj <;> decide

/-- The bits of a sector packet that its checksum covers (R89). -/
def CoveredBit (k j : Nat) : Prop :=
  7 ≤ k ∧ k ≤ 13 ∧ j < 8 ∨ k = 14 ∧ j = 6 ∨ 15 ≤ k ∧ k ≤ 599 ∧ j < 7 ∨
    600 ≤ k ∧ k ≤ 601 ∧ (j = 0 ∨ j = 2 ∨ j = 4 ∨ j = 6)

theorem CoveredBit.cases {k j : Nat} (h : CoveredBit k j) :
    ((7 ≤ k ∧ k ≤ 13) ∧ j < 8) ∨ (k = 14 ∧ j = 6 ∨ 15 ≤ k ∧ k ≤ 599 ∧ j < 7) ∨
      ((k = 600 ∨ k = 601) ∧ (j = 0 ∨ j = 2 ∨ j = 4 ∨ j = 6)) := by
  unfold CoveredBit at h
  omega

/-- The syndrome of a single covered bit is not zero (R89). -/
theorem syndrome_single_ne_zero {k j : Nat} (hcovered : CoveredBit k j) :
    syndrome (single k (0x01#8 <<< j)) ≠ 0x00#8 := by
  obtain ⟨hheader, hj⟩ | hpayload | ⟨hpair, hj⟩ := hcovered.cases
  · rw [syndrome_single_header _ hheader]
    exact one_shiftLeft_ne_zero hj
  · obtain ⟨n, honly⟩ := onlyAt_payload hpayload
    rw [syndrome_single_payload _ (by omega), xorBytes_of_onlyAt honly]
    exact honly.2.1
  · obtain ⟨hfst, hsnd⟩ := csumUnpair_evenBit_ne_zero hj
    rw [syndrome_single_pair _ (by omega)]
    obtain rfl | rfl := hpair
    · rwa [single_self, single_of_ne _ (by decide)]
    · rwa [single_self, single_of_ne _ (by decide)]

/-- Settles O44: the syndrome of the flipped packet is that of the flipped bit, since the packet's own is zero. -/
theorem sectorDecodeCatchesAFlippedBit : Obligations.SectorDecodeCatchesAFlippedBit := by
  intro src s t k j hcap hexec hcovered
  obtain ⟨hwire, htcap⟩ := sectorWire_of_exec hcap hexec
  refine ⟨_, exec_sectorDecode_of_disagrees (by rw [State.writeBytes_pb_cap]; omega) ?_, rfl⟩
  rw [State.byteAt_xorAt, syndrome_xor, hwire.syndrome_eq_zero, BitVec.zero_xor]
  exact syndrome_single_ne_zero hcovered

/-- A bit of a byte changes under XOR with a single bit only if it is that bit. -/
theorem xor_single_getLsbD {b : Byte} {k j n i : Nat} (hj : j < 8) (h : n ≠ k ∨ i ≠ j) :
    (b ^^^ single k (0x01#8 <<< j) n).getLsbD i = b.getLsbD i := by
  by_cases hn : n = k
  · have hi : i ≠ j := h.resolve_left (not_not_intro hn)
    rw [hn, single_self, BitVec.getLsbD_xor, one_shiftLeft_getLsbD hj, decide_eq_false hi, Bool.xor_false]
  · rw [single_of_ne _ hn, BitVec.xor_zero]

/-- A flipped bit that is not covered is not read (R89). -/
theorem sameReadBits_xor_single (read : Nat → Byte) {k j : Nat} (hj : j < 8)
    (huncovered : k ≤ 6 ∨ k = 14 ∧ j ≠ 6 ∨ 15 ≤ k ∧ k ≤ 599 ∧ j = 7 ∨
      600 ≤ k ∧ k ≤ 601 ∧ (j = 1 ∨ j = 3 ∨ j = 5 ∨ j = 7) ∨ 602 ≤ k) :
    SameReadBits (fun n => read n ^^^ single k (0x01#8 <<< j) n) read where
  header n _ _ := by
    have hn : n ≠ k := by omega
    show read n ^^^ single k (0x01#8 <<< j) n = read n
    rw [single_of_ne _ hn, BitVec.xor_zero]
  oddCarrier := xor_single_getLsbD hj (by omega)
  payload _ _ _ _ _ := xor_single_getLsbD hj (by omega)
  pair _ _ _ _ _ := xor_single_getLsbD hj (by omega)

/-- Settles O45: the flipped packet has the read bits of the packet, so it is decoded to the sector. -/
theorem sectorDecodeMissesAnUncoveredBit : Obligations.SectorDecodeMissesAnUncoveredBit := by
  intro src s t k j hcap hexec hj huncovered
  obtain ⟨hwire, htcap⟩ := sectorWire_of_exec hcap hexec
  have hsame : SameReadBits ((t.writeBytes .pb k [t.byteAt .pb k ^^^ (0x01#8 <<< j)]).byteAt .pb)
      (t.byteAt .pb) := by
    rw [State.byteAt_xorAt]
    exact sameReadBits_xor_single _ hj (by omega)
  obtain ⟨hdecode, hsector⟩ :=
    exec_sectorDecode_of_sameReadBits (by rw [State.writeBytes_pb_cap]; omega) hwire hsame
  exact ⟨_, hdecode, rfl, hsector⟩

end Sys2Proof.Machine

/-!
Requests, decoding and the step (R13, R42 to R44). The one idea: `Request.quieted` is a request with every input that
its format does not name driven with zero; it decodes as the request does, and it is what the decoded operation
encodes to.
-/
namespace Sys2Proof.Machine

/-- The request with the inputs its select code does not use at zero, or the empty list (R43, R44). -/
def Request.quieted (r : Request) : Request :=
  { op := r.op
    ranges := if r.op = 0x0#4 then r.ranges else []
    c := if r.op = 0x1#4 ∨ r.op = 0x2#4 then r.c else 0x00#8
    w1 := if r.op = 0x2#4 then r.w1 else 0x00#8
    w2 := if r.op = 0x2#4 then r.w2 else 0x00#8
    src := if 4 ≤ r.op.toNat ∧ r.op.toNat ≤ 8 then r.src else 0x00#8
    stat := if r.op = 0x6#4 ∨ r.op = 0x7#4 then r.stat else 0x00#8 }

theorem decode_encode (i : Instr) : decode (encode i) = .ok i := by
  cases i <;> rfl

/-- The sixteen select codes: those above 0xA, and the eleven legal ones (R42, R44). -/
theorem select_cases (op : BitVec 4) :
    11 ≤ op.toNat ∨ op = 0x0#4 ∨ op = 0x1#4 ∨ op = 0x2#4 ∨ op = 0x3#4 ∨ op = 0x4#4 ∨ op = 0x5#4 ∨ op = 0x6#4 ∨
      op = 0x7#4 ∨ op = 0x8#4 ∨ op = 0x9#4 ∨ op = 0xA#4 := by
  revert op
  decide

theorem decode_of_illegal {r : Request} (h : 11 ≤ r.op.toNat) : decode r = .error (.illegalOp r.op) := by
  unfold decode
  split
  any_goals omega
  rfl

/-- A legal request decodes to the operation that encodes to it, up to the inputs that are not used. -/
theorem exists_decode_of_legal {r : Request} (h : r.op.toNat ≤ 10) :
    ∃ i, decode r = .ok i ∧ encode i = Request.quieted r := by
  obtain ⟨op, ranges, c, w1, w2, src, stat⟩ := r
  obtain hillegal | rfl | rfl | rfl | rfl | rfl | rfl | rfl | rfl | rfl | rfl | rfl := select_cases op
  case inl => exact absurd h (by simp only; omega)
  all_goals exact ⟨_, rfl, rfl⟩

theorem decode_eq_ok_imp_legal {r : Request} {i : Instr} (h : decode r = .ok i) : r.op.toNat ≤ 10 := by
  by_contra hillegal
  rw [decode_of_illegal (by omega)] at h
  cases h

theorem encode_of_decode {r : Request} {i : Instr} (h : decode r = .ok i) : encode i = Request.quieted r := by
  obtain ⟨i', hdecode, hencode⟩ := exists_decode_of_legal (decode_eq_ok_imp_legal h)
  rw [h] at hdecode
  injection hdecode with hi
  rwa [hi]

/-- The inputs that a format does not name have no influence (R44). -/
theorem decode_quieted (r : Request) : decode (Request.quieted r) = decode r := by
  by_cases hlegal : r.op.toNat ≤ 10
  · obtain ⟨i, hdecode, hencode⟩ := exists_decode_of_legal hlegal
    rw [← hencode, decode_encode, hdecode]
  · have hillegal : 11 ≤ r.op.toNat := by omega
    rw [decode_of_illegal hillegal]
    exact decode_of_illegal (r := Request.quieted r) hillegal

/-- Settles O2, by the quieted request: it is what the operation encodes to, and it decodes as the request does. -/
theorem decodeAndEncodeAgree : Obligations.DecodeAndEncodeAgree := by
  refine ⟨decode_encode, fun r hr => ?_, fun r i hdecode => ?_,
    fun r r' hop hranges hc hw hsrc hstat => ?_⟩
  · obtain ⟨i, hdecode, _⟩ := exists_decode_of_legal hr
    exact ⟨i, hdecode⟩
  · rw [encode_of_decode hdecode]
    exact ⟨rfl, fun h => if_pos h, fun h => if_pos h, fun h => ⟨if_pos h, if_pos h⟩, fun h => if_pos h,
      fun h => if_pos h⟩
  · have hquieted : Request.quieted r = Request.quieted r' := by
      simp only [Request.quieted, ← hop, Request.mk.injEq, true_and]
      exact ⟨if_ctx_congr .rfl hranges fun _ => rfl, if_ctx_congr .rfl hc fun _ => rfl,
        if_ctx_congr .rfl (fun h => (hw h).1) fun _ => rfl, if_ctx_congr .rfl (fun h => (hw h).2) fun _ => rfl,
        if_ctx_congr .rfl hsrc fun _ => rfl, if_ctx_congr .rfl hstat fun _ => rfl⟩
    rw [← decode_quieted r, hquieted, decode_quieted]

/-- Settles O1, by evaluating the decoder on the written-out requests. -/
theorem writtenOutRequestsDecode : Obligations.WrittenOutRequestsDecode := by
  refine ⟨?_, ?_, rfl, rfl, rfl⟩ <;> decide

/-! ### The step -/

theorem step_request {s : State} {r : Request} {rest : List Action} {i : Instr}
    (hinbox : s.inbox = .request r :: rest) (hdecode : decode r = .ok i) :
    step s = exec i { s with inbox := rest } := by
  simp only [step, hinbox, hdecode]

theorem step_illegal {s : State} {r : Request} {rest : List Action} (hinbox : s.inbox = .request r :: rest)
    (hop : 11 ≤ r.op.toNat) : step s = .next (State.raise { s with inbox := rest } .illegalOp) := by
  simp only [step, hinbox, decode_of_illegal hop, State.rejectRequest_illegalOp]

theorem step_write {s : State} {m : MemId} {a : Nat} {bs : List Byte} {rest : List Action}
    (hinbox : s.inbox = .write m a bs :: rest) :
    step s = State.requesterWrite { s with inbox := rest } m a bs := by
  simp only [step, hinbox]

theorem step_nothing {s : State} (hinbox : s.inbox = []) : step s = .next s := by
  simp only [step, hinbox]

theorem decode_of_decodeTableWord {nbits w : Nat} {i : Instr} (h : decodeTableWord nbits w = some i) :
    decode (Request.ofTableWord nbits w) = .ok i := by
  unfold decodeTableWord at h
  split at h
  · rwa [← Option.some_inj.mp h]
  · cases h

/-- Settles O3, by the arm of `step` for a request that decodes. -/
theorem stepRunsTheDecodedRequest : Obligations.StepRunsTheDecodedRequest :=
  ⟨fun _ _ _ _ hinbox hdecode => step_request hinbox hdecode,
    fun s nbits w _ hword => step_request (State.withFetchWord_inbox s nbits w) (decode_of_decodeTableWord hword)⟩

/-- Settles O4, by the arm of `step` for a request that decodes to no operation. -/
theorem illegalSelectRaisesIllegalOp : Obligations.IllegalSelectRaisesIllegalOp :=
  fun _ _ _ hinbox hop => step_illegal hinbox hop

/-- The bytes of a write lie inside a memory one by one exactly when the write is empty or ends inside it. -/
theorem write_inside_iff (a n size : Nat) : (∀ j, j < n → a + j < size) ↔ n = 0 ∨ a + n ≤ size := by
  constructor
  · intro h
    obtain hzero | hpos := Nat.eq_zero_or_pos n
    · exact .inl hzero
    · have hlast := h (n - 1) (by omega)
      exact .inr (by omega)
  · omega

theorem State.requesterWrite_inside {s : State} {m : MemId} {a : Nat} {bs : List Byte}
    (h : ∀ j, j < bs.length → a + j < s.size m) : s.requesterWrite m a bs = .next (s.writeBytes m a bs) := by
  rw [write_inside_iff, List.length_eq_zero_iff] at h
  exact if_pos h

theorem State.requesterWrite_outside {s : State} {m : MemId} {a : Nat} {bs : List Byte} {j : Nat}
    (hj : j < bs.length) (h : s.size m ≤ a + j) : s.requesterWrite m a bs = .fault .requesterOutOfRange := by
  apply if_neg
  rw [← List.length_eq_zero_iff, ← write_inside_iff]
  intro hinside
  exact absurd (hinside j hj) (by omega)

/-- A write changes its memory and no other field of the state. -/
theorem State.writeBytes_frame (s : State) (m : MemId) (a : Nat) (bs : List Byte) :
    (s.writeBytes m a bs).cap = s.cap ∧ (s.writeBytes m a bs).out = s.out ∧
      (s.writeBytes m a bs).inbox = s.inbox ∧ (s.writeBytes m a bs).mismatchCount = s.mismatchCount := by
  cases m <;> exact ⟨rfl, rfl, rfl, rfl⟩

/-- What the requester still has to do is no part of a memory. -/
theorem State.byteAt_inbox (s : State) (rest : List Action) (m : MemId) (k : Nat) :
    State.byteAt { s with inbox := rest } m k = s.byteAt m k := by
  cases m <;> rfl

theorem State.size_inbox (s : State) (rest : List Action) (m : MemId) :
    State.size { s with inbox := rest } m = s.size m := by
  cases m <;> rfl

/-- Settles O5, by the arms of `step` for no action and for a write. -/
theorem requesterActsBetweenOperations : Obligations.RequesterActsBetweenOperations := by
  refine ⟨fun s => step_nothing, fun s m a bs rest hinbox hinside => ?_,
    fun s m a bs rest j hinbox hj houtside => ?_⟩
  · obtain ⟨hcap, hout, hrest, hcount⟩ := State.writeBytes_frame { s with inbox := rest } m a bs
    refine ⟨State.writeBytes { s with inbox := rest } m a bs, ?_, fun k => ?_, fun m' k hm => ?_, hcap, hout,
      hrest, hcount⟩
    · rw [step_write hinbox]
      exact State.requesterWrite_inside (by simpa only [State.size_inbox] using hinside)
    · simp only [State.byteAt_writeBytes, true_and, State.byteAt_inbox]
    · rw [State.byteAt_writeBytes, if_neg fun h => hm h.1, State.byteAt_inbox]
  · rw [step_write hinbox]
    exact State.requesterWrite_outside hj (by rwa [State.size_inbox])

theorem exec_isNext (i : Instr) (s : State) : ∃ t, exec i s = .next t := by
  cases i <;> exact ⟨_, rfl⟩

/-- Settles O6, by the requester's oldest action: none, a write inside or outside, a legal or an illegal request. -/
theorem everyRequestIsAnswered : Obligations.EveryRequestIsAnswered := by
  refine ⟨exec_isNext, fun s => ?_⟩
  match hinbox : s.inbox with
  | [] => exact .inl ⟨s, step_nothing hinbox⟩
  | .write m a bs :: rest =>
    by_cases hinside : ∀ j, j < bs.length → a + j < s.size m
    · left
      rw [step_write hinbox, State.requesterWrite_inside (by simpa only [State.size_inbox] using hinside)]
      exact ⟨_, rfl⟩
    · right
      push Not at hinside
      obtain ⟨j, hj, houtside⟩ := hinside
      refine ⟨?_, m, a, bs, rest, j, rfl, hj, houtside⟩
      rw [step_write hinbox]
      exact State.requesterWrite_outside hj (by rwa [State.size_inbox])
  | .request r :: rest =>
    left
    by_cases hlegal : r.op.toNat ≤ 10
    · obtain ⟨i, hdecode, _⟩ := exists_decode_of_legal hlegal
      rw [step_request hinbox hdecode]
      exact exec_isNext i _
    · exact ⟨_, step_illegal hinbox (by omega)⟩

/-! ### Reset -/

theorem cap_ge : 604 ≤ Config.cap := Nat.le_add_left 604 Config.capacityAboveLeast

/-- Settles O7: nothing is listed in either memory at reset. -/
theorem resetLeavesEveryByteUnspecified : Obligations.ResetLeavesEveryByteUnspecified :=
  ⟨fun m _ => by cases m <;> rfl, rfl, rfl, cap_ge⟩

theorem Outputs.absent_legal (cap : Nat) : Outputs.Legal cap Outputs.absent := by
  constructor <;> simp [Outputs.absent]

/-- Settles O8: empty memories are canonical, and absent outputs are legal. -/
theorem resetSatisfiesTheInvariant : Obligations.ResetSatisfiesTheInvariant where
  capacity := cap_ge
  pb_wf := List.Pairwise.nil
  pb_within := List.forall_mem_nil _
  sb_wf := List.Pairwise.nil
  sb_within := List.forall_mem_nil _
  outputs := Outputs.absent_legal _

end Sys2Proof.Machine

/-!
CSUM_COMPUTE, PKT_LENGTH and CMD_VERIFY: what each does in each of its cases, and the statements that are made of
these cases (R68, R74, R92).
-/
namespace Sys2Proof.Machine

/-! ### CSUM_COMPUTE -/

theorem exec_csumCompute (ranges : List ByteRange) (s : State) :
    exec (.csumCompute ranges) s = .next (if ranges.all s.rangeInside then
      s.deliver (Outputs.ofChk (s.xorRanges ranges)) else s.raise .capacityFault) := rfl

theorem all_rangeInside_iff (ranges : List ByteRange) (s : State) :
    ranges.all s.rangeInside = true ↔ ∀ r ∈ ranges, r.first ≤ r.last → r.last < s.size r.mem := by
  simp only [List.all_eq_true, State.rangeInside_iff]

theorem exec_csumCompute_inside {ranges : List ByteRange} {s : State}
    (h : ∀ r ∈ ranges, r.first ≤ r.last → r.last < s.size r.mem) :
    exec (.csumCompute ranges) s = .next (s.deliver (Outputs.ofChk (s.xorRanges ranges))) := by
  rw [exec_csumCompute, if_pos ((all_rangeInside_iff ranges s).mpr h)]

theorem exec_csumCompute_outside {ranges : List ByteRange} {r : ByteRange} {s : State} (hr : r ∈ ranges)
    (hne : r.first ≤ r.last) (hout : s.size r.mem ≤ r.last) :
    exec (.csumCompute ranges) s = .next (s.raise .capacityFault) := by
  rw [exec_csumCompute, if_neg]
  rw [all_rangeInside_iff]
  intro hinside
  exact absurd (hinside r hr hne) (by omega)

/-- The XOR of the ranges, as the XOR of their own checksums (R68). -/
theorem State.xorRanges_eq (s : State) (ranges : List ByteRange) :
    s.xorRanges ranges = xorBytes (ranges.map fun r => xorRange (s.byteAt r.mem) r.first r.last) :=
  List.foldl_map.symm

theorem xorBytes_flatMap {α : Type} (l : List α) (f : α → List Byte) :
    xorBytes (l.flatMap f) = xorBytes (l.map fun a => xorBytes (f a)) := by
  induction l with
  | nil => rfl
  | cons a l ih => simp [ih]

/-- Settles O19: the checksums of the ranges together are the checksum of all their bytes. -/
theorem csumComputeDeliversTheXor : Obligations.CsumComputeDeliversTheXor := by
  intro ranges s hinside
  have hxor : s.xorRanges ranges = xorBytes (ranges.flatMap fun r => bytesFrom (s.byteAt r.mem) r.first r.last) := by
    rw [State.xorRanges_eq, xorBytes_flatMap]
    rfl
  rw [exec_csumCompute_inside hinside, hxor]
  rfl

/-- Settles O20: the check of the ranges fails at the range that ends outside. -/
theorem csumComputeFaultsOutsideItsMemory : Obligations.CsumComputeFaultsOutsideItsMemory :=
  fun _ _ _ hr hne hout => exec_csumCompute_outside hr hne hout

theorem exec_csumCompute_perm {ranges ranges' : List ByteRange} (h : ranges.Perm ranges') (s : State) :
    exec (.csumCompute ranges) s = exec (.csumCompute ranges') s := by
  have hinside : ranges.all s.rangeInside = ranges'.all s.rangeInside := by
    rw [Bool.eq_iff_iff, List.all_eq_true, List.all_eq_true]
    exact forall_congr' fun r => by rw [h.mem_iff]
  have hxor : s.xorRanges ranges = s.xorRanges ranges' := by
    rw [State.xorRanges_eq, State.xorRanges_eq]
    exact xorBytes_perm (h.map _)
  rw [exec_csumCompute, exec_csumCompute, hinside, hxor]

/-- Settles O21: XOR does not see the order of the ranges, and a range cancels itself. -/
theorem csumComputeIgnoresOrderAndCancels : Obligations.CsumComputeIgnoresOrderAndCancels := by
  refine ⟨fun _ _ s h => exec_csumCompute_perm h s, fun r rest s hr => ?_⟩
  have hinside : s.rangeInside r = true := (s.rangeInside_iff r).mpr hr
  have hxor : s.xorRanges (r :: r :: rest) = s.xorRanges rest := by
    simp only [State.xorRanges_eq, List.map_cons, xorBytes_cons]
    rw [← BitVec.xor_assoc, BitVec.xor_self, BitVec.zero_xor]
  rw [exec_csumCompute, exec_csumCompute, hxor, List.all_cons, List.all_cons, hinside, Bool.true_and, Bool.true_and]

/-! ### PKT_LENGTH -/

theorem exec_pktLength_some {s : State} {l : Nat} (h : firstZero s.cap (s.byteAt .pb) = some l) :
    exec .pktLength s = .next (s.deliver (Outputs.ofLen l)) := by
  simp only [exec, execPktLength, h]

theorem exec_pktLength_none {s : State} (h : firstZero s.cap (s.byteAt .pb) = none) :
    exec .pktLength s = .next (s.raise .noTerminator) := by
  simp only [exec, execPktLength, h]

/-- Settles O27, by the answer of the search for the first zero. -/
theorem pktLengthDeliversTheFirstZero : Obligations.PktLengthDeliversTheFirstZero :=
  fun _ _ hl hzero hbefore => exec_pktLength_some (firstZero_eq_some_iff.mpr ⟨hl, hzero, hbefore⟩)

/-! ### CMD_VERIFY -/

theorem exec_cmdVerify_capacity {s : State} (hcap : s.cap < 25) :
    exec .cmdVerify s = .next (s.raise .capacityFault) :=
  congrArg Host.Outcome.next (State.ifCapacity_of_lt _ hcap)

theorem exec_cmdVerify_none {s : State} (hcap : 25 ≤ s.cap) (h : firstZero s.cap (s.byteAt .pb) = none) :
    exec .cmdVerify s = .next (s.raise .noTerminator) := by
  simp only [exec, execCmdVerify, State.ifCapacity_of_le _ hcap, h]

theorem exec_cmdVerify_short {s : State} {l : Nat} (hcap : 25 ≤ s.cap)
    (h : firstZero s.cap (s.byteAt .pb) = some l) (hl : l < 3) :
    exec .cmdVerify s = .next (s.raise .shortPacket) := by
  simp only [exec, execCmdVerify, State.ifCapacity_of_le _ hcap, h, if_pos hl]

/-- The verdict of CMD_VERIFY on a packet whose terminator stands at `l` (R92). -/
def commandVerdict (s : State) (l : Nat) : Bool :=
  matchFlag (commandChecksum s) (csumUnpair (s.byteAt .pb (l - 3)) (s.byteAt .pb (l - 2)))

theorem exec_cmdVerify_some {s : State} {l : Nat} (hcap : 25 ≤ s.cap)
    (h : firstZero s.cap (s.byteAt .pb) = some l) (hl : 3 ≤ l) :
    exec .cmdVerify s = .next (s.deliver (Outputs.ofMatch (commandVerdict s l))) := by
  simp only [exec, execCmdVerify, State.ifCapacity_of_le _ hcap, h, if_neg (Nat.not_lt.mpr hl)]
  rfl

/-- Settles O28: without a zero byte the search for the terminator answers none. -/
theorem unterminatedBufferRaisesNoTerminator : Obligations.UnterminatedBufferRaisesNoTerminator := by
  intro s hnoZero
  have hnone := firstZero_eq_none_iff.mpr hnoZero
  exact ⟨exec_pktLength_none hnone, fun hcap => exec_cmdVerify_none hcap hnone⟩

/-- The checksum of a command packet: two odd bytes, one group of seven and the header (R59, R92). -/
theorem commandChecksum_eq (s : State) : commandChecksum s =
    unpack (s.byteAt .pb 14) 0 (s.byteAt .pb 15) ^^^ unpack (s.byteAt .pb 14) 1 (s.byteAt .pb 16) ^^^
      xorBytes ((List.range 7).map fun i => unpack (s.byteAt .pb 17) i (s.byteAt .pb (18 + i))) ^^^
      xorRange (s.byteAt .pb) 7 13 := by
  have hbytes : unpackPayload (s.byteAt .pb) 2 1 =
      [unpack (s.byteAt .pb 14) 0 (s.byteAt .pb 15), unpack (s.byteAt .pb 14) 1 (s.byteAt .pb 16)] ++
        (List.range 7).map fun i => unpack (s.byteAt .pb 17) i (s.byteAt .pb (18 + i)) := rfl
  rw [commandChecksum, hbytes, xorBytes_append, xorBytes_cons, xorBytes_cons, xorBytes_nil, BitVec.xor_zero]

/-- Settles O47, by the completed case of CMD_VERIFY and the bytes its checksum covers. -/
theorem cmdVerifyComparesTheCommandChecksum : Obligations.CmdVerifyComparesTheCommandChecksum := by
  intro s l hcap hl hlcap hzero hbefore
  have hfirst : firstZero s.cap (s.byteAt .pb) = some l := firstZero_eq_some_iff.mpr ⟨hlcap, hzero, hbefore⟩
  rw [exec_cmdVerify_some hcap hfirst hl, commandVerdict, matchFlag_eq_decide, commandChecksum_eq]
  rfl

/-- The four outcomes of CMD_VERIFY, in the order of R103. -/
theorem exec_cmdVerify_cases {s t : State} (h : exec .cmdVerify s = .next t) :
    (s.cap < 25 ∧ t = s.raise .capacityFault) ∨
    (25 ≤ s.cap ∧ firstZero s.cap (s.byteAt .pb) = none ∧ t = s.raise .noTerminator) ∨
    (∃ l, 25 ≤ s.cap ∧ firstZero s.cap (s.byteAt .pb) = some l ∧ l < 3 ∧ t = s.raise .shortPacket) ∨
    (∃ l, 25 ≤ s.cap ∧ firstZero s.cap (s.byteAt .pb) = some l ∧ 3 ≤ l ∧
      t = s.deliver (Outputs.ofMatch (commandVerdict s l))) := by
  obtain hcap | hcap := Nat.lt_or_ge s.cap 25
  · rw [exec_cmdVerify_capacity hcap] at h
    injection h with h
    exact .inl ⟨hcap, h.symm⟩
  cases hfirst : firstZero s.cap (s.byteAt .pb) with
  | none =>
    rw [exec_cmdVerify_none hcap hfirst] at h
    injection h with h
    exact .inr (.inl ⟨hcap, rfl, h.symm⟩)
  | some l =>
    obtain hl | hl := Nat.lt_or_ge l 3
    · rw [exec_cmdVerify_short hcap hfirst hl] at h
      injection h with h
      exact .inr (.inr (.inl ⟨l, hcap, rfl, hl, h.symm⟩))
    · rw [exec_cmdVerify_some hcap hfirst hl] at h
      injection h with h
      exact .inr (.inr (.inr ⟨l, hcap, rfl, hl, h.symm⟩))

/-- Settles O48, by the four outcomes, which exclude each other. -/
theorem cmdVerifyFaultPriority : Obligations.CmdVerifyFaultPriority := by
  intro s t h
  obtain ⟨hcap, rfl⟩ | ⟨hcap, hnone, rfl⟩ | ⟨l, hcap, hfirst, hl, rfl⟩ | ⟨l, hcap, hfirst, hl, rfl⟩ :=
    exec_cmdVerify_cases h
  case inl =>
    exact ⟨iff_of_true rfl hcap, iff_of_false (by simp) (by omega), iff_of_false (by simp) (by omega),
      iff_of_false (by simp) (by omega)⟩
  case inr.inl =>
    have hnoZero := firstZero_eq_none_iff.mp hnone
    exact ⟨iff_of_false (by simp) (by omega), iff_of_true rfl ⟨hcap, hnoZero⟩,
      iff_of_false (by simp) fun ⟨_, k, hk, hzero⟩ => hnoZero k (by omega) hzero,
      iff_of_false (by simp) fun ⟨_, ⟨k, hk, hzero⟩, _⟩ => hnoZero k hk hzero⟩
  case inr.inr.inl =>
    obtain ⟨hlcap, hzero, _⟩ := firstZero_eq_some_iff.mp hfirst
    exact ⟨iff_of_false (by simp) (by omega), iff_of_false (by simp) fun ⟨_, hnoZero⟩ => hnoZero l hlcap hzero,
      iff_of_true rfl ⟨hcap, l, hl, hzero⟩, iff_of_false (by simp) fun ⟨_, _, hnoEarly⟩ => hnoEarly l hl hzero⟩
  case inr.inr.inr =>
    obtain ⟨hlcap, hzero, hbefore⟩ := firstZero_eq_some_iff.mp hfirst
    exact ⟨iff_of_false (by simp) (by omega), iff_of_false (by simp) fun ⟨_, hnoZero⟩ => hnoZero l hlcap hzero,
      iff_of_false (by simp) fun ⟨_, k, hk, hkzero⟩ => hbefore k (by omega) hkzero,
      iff_of_true rfl ⟨hcap, ⟨l, hlcap, hzero⟩, fun k hk => hbefore k (by omega)⟩⟩

/-! ### After a mismatch -/

/-- A mismatch of SECTOR_DECODE leaves PB, so the next SECTOR_DECODE finds the same mismatch (R100). -/
theorem sectorDecode_mismatch_repeats {s t : State} (hexec : exec .sectorDecode s = .next t)
    (hresult : t.out.result = some 0x06#8) :
    t.pb = s.pb ∧ ∃ u, exec .sectorDecode t = .next u ∧ u.out = t.out := by
  obtain ⟨_, rfl⟩ | ⟨_, _, rfl⟩ | ⟨hcap, hsyndrome, rfl⟩ := exec_sectorDecode_cases hexec
  · simp at hresult
  · simp at hresult
  · exact ⟨rfl, _, exec_sectorDecode_of_disagrees (s := s.loseSector) hcap hsyndrome, rfl⟩

/-- A mismatch of CMD_VERIFY changes the outputs alone, so the next CMD_VERIFY ends in the same state (R100). -/
theorem cmdVerify_mismatch_repeats {s t : State} (hexec : exec .cmdVerify s = .next t)
    (hmatch : t.out.isMatch = some false) :
    t = s.deliver (Outputs.ofMatch false) ∧ exec .cmdVerify t = .next t := by
  obtain ⟨_, rfl⟩ | ⟨_, _, rfl⟩ | ⟨_, _, _, _, rfl⟩ | ⟨l, hcap, hfirst, hl, rfl⟩ := exec_cmdVerify_cases hexec
  case inr.inr.inr =>
    have hverdict : commandVerdict s l = false := Option.some_inj.mp hmatch
    rw [hverdict]
    have hagain := exec_cmdVerify_some (s := s.deliver (Outputs.ofMatch false)) hcap hfirst hl
    have hsame : commandVerdict (s.deliver (Outputs.ofMatch false)) l = false := hverdict
    rw [hsame] at hagain
    exact ⟨rfl, hagain⟩
  all_goals simp at hmatch

theorem csumVerify_mismatch {s t : State} {c w1 w2 : Byte} (hexec : exec (.csumVerify c w1 w2) s = .next t)
    (hmatch : t.out.isMatch = some false) : t = s.deliver (Outputs.ofMatch false) := by
  rw [exec_csumVerify] at hexec
  injection hexec with ht
  subst ht
  have hverdict : matchFlag c (csumUnpair w1 w2) = false := Option.some_inj.mp hmatch
  rw [hverdict]

/-- Settles O46: none of the three verifiers writes PB on a mismatch. -/
theorem mismatchLeavesThePacketForARetry : Obligations.MismatchLeavesThePacketForARetry :=
  ⟨fun _ _ => sectorDecode_mismatch_repeats, fun _ _ => cmdVerify_mismatch_repeats,
    fun _ _ _ _ _ => csumVerify_mismatch⟩

end Sys2Proof.Machine

/-!
What an operation of the block can do, said once with its outputs: it `Completes` or it `Faults`. The statements about
every operation (R17, R25, R94, R97) are read off these cases.
-/
namespace Sys2Proof.Machine

/-- Operation `i` completes from `s` in the state `t`: one case for each kind of result (R17). -/
inductive Completes : Instr → State → State → Prop where
  | csumCompute {ranges : List ByteRange} {s : State}
      (inside : ∀ r ∈ ranges, r.first ≤ r.last → r.last < s.size r.mem) :
      Completes (.csumCompute ranges) s (s.deliver (Outputs.ofChk (s.xorRanges ranges)))
  | csumEncode {c : Byte} {s : State} :
      Completes (.csumEncode c) s (s.deliver (Outputs.ofPair (csumPair c).1 (csumPair c).2))
  | csumVerify {c w1 w2 : Byte} {s : State} :
      Completes (.csumVerify c w1 w2) s (s.deliver (Outputs.ofMatch (matchFlag c (csumUnpair w1 w2))))
  | pktLength {s : State} {l : Nat} (first : firstZero s.cap (s.byteAt .pb) = some l) :
      Completes .pktLength s (s.deliver (Outputs.ofLen l))
  | packet {i : Instr} {s : State} {need : Nat} {p : List Byte} (packet : packetOf i s = some (need, p))
      (fits : need ≤ s.cap) : Completes i s (s.emitPacket p)
  | sectorMatch {s : State} (fits : 602 ≤ s.cap) (equal : syndrome (s.byteAt .pb) = 0x00#8) :
      Completes .sectorDecode s s.keepSector
  | sectorMismatch {s : State} (fits : 602 ≤ s.cap) (differ : syndrome (s.byteAt .pb) ≠ 0x00#8) :
      Completes .sectorDecode s s.loseSector
  | cmdVerify {s : State} {l : Nat} (fits : 25 ≤ s.cap) (first : firstZero s.cap (s.byteAt .pb) = some l)
      (long : 3 ≤ l) : Completes .cmdVerify s (s.deliver (Outputs.ofMatch (commandVerdict s l)))

/-- Operation `i` raises the fault `f` in `s`: one case for each cause (R97, R98, R99). -/
inductive Faults : Instr → State → FaultCode → Prop where
  | range {ranges : List ByteRange} {r : ByteRange} {s : State} (named : r ∈ ranges)
      (nonempty : r.first ≤ r.last) (outside : s.size r.mem ≤ r.last) : Faults (.csumCompute ranges) s .capacityFault
  | packet {i : Instr} {s : State} {need : Nat} {p : List Byte} (packet : packetOf i s = some (need, p))
      (small : s.cap < need) : Faults i s .capacityFault
  | sectorDecode {s : State} (small : s.cap < 602) : Faults .sectorDecode s .capacityFault
  | cmdVerify {s : State} (small : s.cap < 25) : Faults .cmdVerify s .capacityFault
  | pktLengthUnterminated {s : State} (unterminated : firstZero s.cap (s.byteAt .pb) = none) :
      Faults .pktLength s .noTerminator
  | cmdVerifyUnterminated {s : State} (fits : 25 ≤ s.cap) (unterminated : firstZero s.cap (s.byteAt .pb) = none) :
      Faults .cmdVerify s .noTerminator
  | cmdVerifyShort {s : State} {l : Nat} (fits : 25 ≤ s.cap) (first : firstZero s.cap (s.byteAt .pb) = some l)
      (short : l < 3) : Faults .cmdVerify s .shortPacket

theorem exec_of_completes {i : Instr} {s t : State} (h : Completes i s t) : exec i s = .next t := by
  cases h with
  | csumCompute inside => exact exec_csumCompute_inside inside
  | csumEncode => rfl
  | csumVerify => rfl
  | pktLength first => exact exec_pktLength_some first
  | packet packet fits => rw [exec_of_packetOf packet, State.ifCapacity_of_le _ fits]
  | sectorMatch fits equal => exact exec_sectorDecode_of_agrees fits equal
  | sectorMismatch fits differ => exact exec_sectorDecode_of_disagrees fits differ
  | cmdVerify fits first long => exact exec_cmdVerify_some fits first long

/-- An operation completes in one state at most. -/
theorem Completes.eq_of_exec {i : Instr} {s t t' : State} (h : Completes i s t') (hexec : exec i s = .next t) :
    t = t' := by
  rw [exec_of_completes h] at hexec
  injection hexec with ht
  exact ht.symm

theorem exec_of_faults {i : Instr} {s : State} {f : FaultCode} (h : Faults i s f) :
    exec i s = .next (s.raise f) := by
  cases h with
  | range named nonempty outside => exact exec_csumCompute_outside named nonempty outside
  | packet packet small => rw [exec_of_packetOf packet, State.ifCapacity_of_lt _ small]
  | sectorDecode small => exact exec_sectorDecode_capacity small
  | cmdVerify small => exact exec_cmdVerify_capacity small
  | pktLengthUnterminated unterminated => exact exec_pktLength_none unterminated
  | cmdVerifyUnterminated fits unterminated => exact exec_cmdVerify_none fits unterminated
  | cmdVerifyShort fits first short => exact exec_cmdVerify_short fits first short

/-- An encoding operation completes or lacks capacity (R97). -/
theorem completes_or_faults_of_packetOf {i : Instr} {s : State} {need : Nat} {p : List Byte}
    (hpacket : packetOf i s = some (need, p)) : (∃ t, Completes i s t) ∨ ∃ f, Faults i s f := by
  obtain hsmall | hfits := Nat.lt_or_ge s.cap need
  · exact .inr ⟨_, .packet hpacket hsmall⟩
  · exact .inl ⟨_, .packet hpacket hfits⟩

/-- The cases cover every operation in every state. -/
theorem completes_or_faults (i : Instr) (s : State) : (∃ t, Completes i s t) ∨ ∃ f, Faults i s f := by
  cases i with
  | csumCompute ranges =>
    by_cases hinside : ∀ r ∈ ranges, r.first ≤ r.last → r.last < s.size r.mem
    · exact .inl ⟨_, .csumCompute hinside⟩
    · push Not at hinside
      obtain ⟨r, hr, hne, hout⟩ := hinside
      exact .inr ⟨_, .range hr hne hout⟩
  | csumEncode c => exact .inl ⟨_, .csumEncode⟩
  | csumVerify c w1 w2 => exact .inl ⟨_, .csumVerify⟩
  | pktLength =>
    cases hfirst : firstZero s.cap (s.byteAt .pb) with
    | none => exact .inr ⟨_, .pktLengthUnterminated hfirst⟩
    | some l => exact .inl ⟨_, .pktLength hfirst⟩
  | buildStatus src => exact completes_or_faults_of_packetOf rfl
  | buildStatusDib src => exact completes_or_faults_of_packetOf rfl
  | buildWriteAck src stat => exact completes_or_faults_of_packetOf rfl
  | buildInitAck src stat => exact completes_or_faults_of_packetOf rfl
  | sectorEncode src => exact completes_or_faults_of_packetOf rfl
  | sectorDecode =>
    obtain hsmall | hfits := Nat.lt_or_ge s.cap 602
    · exact .inr ⟨_, .sectorDecode hsmall⟩
    · by_cases hequal : syndrome (s.byteAt .pb) = 0x00#8
      · exact .inl ⟨_, .sectorMatch hfits hequal⟩
      · exact .inl ⟨_, .sectorMismatch hfits hequal⟩
  | cmdVerify =>
    obtain hsmall | hfits := Nat.lt_or_ge s.cap 25
    · exact .inr ⟨_, .cmdVerify hsmall⟩
    cases hfirst : firstZero s.cap (s.byteAt .pb) with
    | none => exact .inr ⟨_, .cmdVerifyUnterminated hfits hfirst⟩
    | some l =>
      obtain hshort | hlong := Nat.lt_or_ge l 3
      · exact .inr ⟨_, .cmdVerifyShort hfits hfirst hshort⟩
      · exact .inl ⟨_, .cmdVerify hfits hfirst hlong⟩

/-- Where an operation answers `t`, it completed in `t` or raised a fault. -/
theorem completes_or_raises {i : Instr} {s t : State} (h : exec i s = .next t) :
    Completes i s t ∨ ∃ f, Faults i s f ∧ t = s.raise f := by
  obtain ⟨t', hcompletes⟩ | ⟨f, hfaults⟩ := completes_or_faults i s
  · obtain rfl := hcompletes.eq_of_exec h
    exact .inl hcompletes
  · rw [exec_of_faults hfaults] at h
    injection h with h
    exact .inr ⟨f, hfaults, h.symm⟩

theorem Completes.fault_eq {i : Instr} {s t : State} (h : Completes i s t) : t.out.fault = some .noFault := by
  cases h <;> rfl

theorem Faults.ne_noFault {i : Instr} {s : State} {f : FaultCode} (h : Faults i s f) : f ≠ .noFault := by
  cases h <;> decide

theorem packetOf_length {i : Instr} {s : State} {need : Nat} {p : List Byte}
    (h : packetOf i s = some (need, p)) : p.length = need := by
  cases i <;> cases h
  case buildStatus src => exact statusPacket_length src
  case buildStatusDib src => exact statusDibPacket_length src
  case buildWriteAck src stat => exact ackPacket_length _ src stat
  case buildInitAck src stat => exact ackPacket_length _ src stat
  case sectorEncode src => exact sectorPacket_length src _

theorem packetOf_need_le {i : Instr} {s : State} {need : Nat} {p : List Byte}
    (h : packetOf i s = some (need, p)) : need ≤ 604 := by
  cases i <;> cases h <;> decide

/-! ### Outputs -/

/-- Settles O11: FAULT is `noFault` where the operation completes, and a fault is `State.raise`. -/
theorem faultDeliversOnlyItsName : Obligations.FaultDeliversOnlyItsName := by
  intro i s t hexec
  obtain hcompletes | ⟨f, _, rfl⟩ := completes_or_raises hexec
  · exact ⟨.noFault, hcompletes.fault_eq, fun hne => absurd rfl hne⟩
  · exact ⟨f, rfl, fun _ => rfl⟩

/-- An operation that delivered `noFault` completed. -/
theorem completes_of_noFault {i : Instr} {s t : State} (hexec : exec i s = .next t)
    (hfault : t.out.fault = some .noFault) : Completes i s t := by
  obtain hcompletes | ⟨f, hfaults, rfl⟩ := completes_or_raises hexec
  · exact hcompletes
  · exact absurd (Option.some_inj.mp hfault) hfaults.ne_noFault

/-- Settles O12, by the outputs of each kind of completion. -/
theorem completedOperationDeliversItsOutputs : Obligations.CompletedOperationDeliversItsOutputs := by
  intro i s t hexec hfault
  cases completes_of_noFault hexec hfault with
  | packet packet _ => cases i <;> cases packet <;> simp
  | _ => simp

/-- Settles O16: with CAP at least 604 a range outside its memory is the one cause of CapacityFault left. -/
theorem capacityFaultOnlyFromChecksumRanges : Obligations.CapacityFaultOnlyFromChecksumRanges := by
  intro i s t hcap hexec
  constructor
  · intro hfault
    obtain hcompletes | ⟨f, hfaults, rfl⟩ := completes_or_raises hexec
    · rw [hcompletes.fault_eq] at hfault
      cases hfault
    · obtain rfl : f = .capacityFault := Option.some_inj.mp hfault
      cases hfaults with
      | range named nonempty outside => exact ⟨_, rfl, _, named, nonempty, outside⟩
      | packet packet small =>
        have hneed := packetOf_need_le packet
        omega
      | sectorDecode small => omega
      | cmdVerify small => omega
  · rintro ⟨ranges, rfl, r, hr, hne, hout⟩
    rw [exec_csumCompute_outside hr hne hout] at hexec
    injection hexec with ht
    subst ht
    rfl

/-- Settles O14: no operation reads an output. -/
theorem earlierOutcomesDoNotMatter : Obligations.EarlierOutcomesDoNotMatter := by
  intro i s o
  cases i <;> rfl

/-- Settles O15: each of these operations has a fault for a capacity below its least one. -/
theorem capacityFaultBelowTheLeastCapacity : Obligations.CapacityFaultBelowTheLeastCapacity :=
  fun _ _ _ => ⟨fun h => exec_of_faults (.packet rfl h), fun h => exec_of_faults (.packet rfl h),
    fun h => exec_of_faults (.packet rfl h), fun h => exec_of_faults (.packet rfl h),
    fun h => exec_of_faults (.packet rfl h), fun h => exec_of_faults (.sectorDecode h),
    fun h => exec_of_faults (.cmdVerify h)⟩

/-! ### Memories -/

/-- A completed operation keeps the capacity and the requester's plans. -/
theorem Completes.frame {i : Instr} {s t : State} (h : Completes i s t) : t.cap = s.cap ∧ t.inbox = s.inbox := by
  cases h <;> exact ⟨rfl, rfl⟩

/-- PB beyond the emitted packet is unchanged (R38). -/
theorem State.byteAt_emitPacket_above (s : State) {p : List Byte} {k : Nat} (hk : p.length ≤ k) :
    (s.emitPacket p).byteAt .pb k = s.byteAt .pb k := by
  rw [State.byteAt_emitPacket_pb, if_neg (Nat.not_lt.mpr hk)]

/-- Of the completed operations only those that emit a packet change PB, and only below its length (R25). -/
theorem Completes.byteAt_pb {i : Instr} {s t : State} (h : Completes i s t) {k : Nat}
    (hk : ∀ need p, packetOf i s = some (need, p) → need ≤ k) : t.byteAt .pb k = s.byteAt .pb k := by
  cases h with
  | packet packet fits =>
    have habove := hk _ _ packet
    rw [← packetOf_length packet] at habove
    exact State.byteAt_emitPacket_above s habove
  | _ => rfl

/-- Of the completed operations only SECTOR_DECODE changes SB, and only its 512 bytes (R25). -/
theorem Completes.byteAt_sb {i : Instr} {s t : State} (h : Completes i s t) {k : Nat}
    (hk : i = .sectorDecode → 511 < k) : t.byteAt .sb k = s.byteAt .sb k := by
  cases h with
  | sectorMatch _ _ =>
    have hout : ¬ k < 512 := Nat.not_lt.mpr (hk rfl)
    rw [State.byteAt_keepSector_sb, if_neg hout]
  | sectorMismatch _ _ => exact State.byteAt_loseSector_sb s (hk rfl)
  | _ => rfl

/-- Settles O10, by the write set of each kind of completion; a fault writes nothing. -/
theorem operationsChangeOnlyTheirWriteSet : Obligations.OperationsChangeOnlyTheirWriteSet := by
  intro i s t hexec
  obtain hcompletes | ⟨f, _, rfl⟩ := completes_or_raises hexec
  · obtain ⟨hcap, hinbox⟩ := hcompletes.frame
    refine ⟨fun k hk => hcompletes.byteAt_pb fun need p hpacket => ?_, fun k hk => hcompletes.byteAt_sb ?_,
      hcap, hinbox⟩
    · cases i <;> cases hpacket <;> exact hk
    · rintro rfl
      exact hk
  · exact ⟨fun k _ => State.byteAt_raise s f .pb k, fun k _ => State.byteAt_raise s f .sb k, rfl, rfl⟩

end Sys2Proof.Machine

/-!
Two runs on the same bytes (R22). The one idea: both runs fall under the same case of `Completes` or `Faults`, because
each case is stated of the capacity and of the bytes alone.
-/
namespace Sys2Proof.Machine

/-- Two states with the same capacity and the same bytes, however they came to be there (R22). -/
structure SameBuffers (s s' : State) : Prop where
  cap : s.cap = s'.cap
  bytes : s.byteAt = s'.byteAt

/-- Two states after an operation agree in what R22 speaks of. -/
structure SameResult (t t' : State) : Prop where
  out : t.out = t'.out
  pb : ∀ k, t.byteAt .pb k = t'.byteAt .pb k
  sb : t.out.result ≠ some 0x06#8 → ∀ k, t.byteAt .sb k = t'.byteAt .sb k

theorem SameBuffers.size_eq {s s' : State} (h : SameBuffers s s') (m : MemId) : s.size m = s'.size m := by
  cases m with
  | pb => exact h.cap
  | sb => rfl

theorem SameBuffers.packetOf_eq {s s' : State} (h : SameBuffers s s') (i : Instr) :
    packetOf i s = packetOf i s' := by
  cases i <;> simp only [packetOf, h.bytes]

theorem SameBuffers.firstZero_eq {s s' : State} (h : SameBuffers s s') :
    firstZero s.cap (s.byteAt .pb) = firstZero s'.cap (s'.byteAt .pb) := by
  rw [h.cap, h.bytes]

theorem SameBuffers.xorRanges_eq {s s' : State} (h : SameBuffers s s') (ranges : List ByteRange) :
    s.xorRanges ranges = s'.xorRanges ranges := by
  simp only [State.xorRanges_eq, h.bytes]

theorem SameBuffers.commandVerdict_eq {s s' : State} (h : SameBuffers s s') (l : Nat) :
    commandVerdict s l = commandVerdict s' l := by
  simp only [commandVerdict, commandChecksum, h.bytes]

/-- Delivering the same outputs gives the same result. -/
theorem SameBuffers.deliver {s s' : State} (h : SameBuffers s s') {o o' : Outputs} (ho : o = o') :
    SameResult (s.deliver o) (s'.deliver o') where
  out := ho
  pb k := congrFun (congrFun h.bytes .pb) k
  sb _ k := congrFun (congrFun h.bytes .sb) k

/-- What completes on the one buffers completes on the other with the same result. -/
theorem Completes.transfer {i : Instr} {s s' t : State} (hsame : SameBuffers s s') (h : Completes i s t) :
    ∃ t', Completes i s' t' ∧ SameResult t t' := by
  have hbyte : ∀ m k, s.byteAt m k = s'.byteAt m k := fun m k => congrFun (congrFun hsame.bytes m) k
  cases h with
  | csumCompute inside =>
    exact ⟨_, .csumCompute fun r hr => hsame.size_eq r.mem ▸ inside r hr,
      hsame.deliver (congrArg _ (hsame.xorRanges_eq _))⟩
  | csumEncode => exact ⟨_, .csumEncode, hsame.deliver rfl⟩
  | csumVerify => exact ⟨_, .csumVerify, hsame.deliver rfl⟩
  | pktLength first => exact ⟨_, .pktLength (hsame.firstZero_eq ▸ first), hsame.deliver rfl⟩
  | packet packet fits =>
    refine ⟨_, .packet (hsame.packetOf_eq i ▸ packet) (hsame.cap ▸ fits), rfl, fun k => ?_, fun _ k => ?_⟩
    · simp only [State.byteAt_emitPacket_pb, hbyte]
    · simp only [State.byteAt_emitPacket_sb, hbyte]
  | sectorMatch fits equal =>
    refine ⟨_, .sectorMatch (hsame.cap ▸ fits) (hsame.bytes ▸ equal), rfl, hbyte .pb, fun _ k => ?_⟩
    simp only [State.byteAt_keepSector_sb, hsame.bytes]
  | sectorMismatch fits differ =>
    exact ⟨_, .sectorMismatch (hsame.cap ▸ fits) (hsame.bytes ▸ differ), rfl, hbyte .pb,
      fun hresult => absurd rfl hresult⟩
  | cmdVerify fits first long =>
    exact ⟨_, .cmdVerify (hsame.cap ▸ fits) (hsame.firstZero_eq ▸ first) long,
      hsame.deliver (congrArg _ (hsame.commandVerdict_eq _))⟩

/-- What faults on the one buffers faults on the other. -/
theorem Faults.transfer {i : Instr} {s s' : State} {f : FaultCode} (hsame : SameBuffers s s')
    (h : Faults i s f) : Faults i s' f := by
  cases h with
  | range named nonempty outside => exact .range named nonempty (hsame.size_eq _ ▸ outside)
  | packet packet small => exact .packet (hsame.packetOf_eq i ▸ packet) (hsame.cap ▸ small)
  | sectorDecode small => exact .sectorDecode (hsame.cap ▸ small)
  | cmdVerify small => exact .cmdVerify (hsame.cap ▸ small)
  | pktLengthUnterminated unterminated => exact .pktLengthUnterminated (hsame.firstZero_eq ▸ unterminated)
  | cmdVerifyUnterminated fits unterminated =>
    exact .cmdVerifyUnterminated (hsame.cap ▸ fits) (hsame.firstZero_eq ▸ unterminated)
  | cmdVerifyShort fits first short =>
    exact .cmdVerifyShort (hsame.cap ▸ fits) (hsame.firstZero_eq ▸ first) short

/-- Settles O13: both runs fall under the same case, with the same result. -/
theorem resultDependsOnlyOnInputsAndBuffers : Obligations.ResultDependsOnlyOnInputsAndBuffers := by
  intro i s s' t t' hcap hbytes hexec hexec'
  have hsame : SameBuffers s s' := ⟨hcap, funext fun m => funext (hbytes m)⟩
  obtain hcompletes | ⟨f, hfaults, rfl⟩ := completes_or_raises hexec
  · obtain ⟨u, hu, hresult⟩ := hcompletes.transfer hsame
    obtain rfl := hu.eq_of_exec hexec'
    exact ⟨hresult.out, hresult.pb, hresult.sb⟩
  · rw [exec_of_faults (hfaults.transfer hsame)] at hexec'
    injection hexec' with ht
    subst ht
    exact ⟨rfl, hbytes .pb, fun _ => hbytes .sb⟩

end Sys2Proof.Machine

/-!
The invariant (R7, R17, R19, R20). The one idea: every completed operation is at most one write that fits, followed by
the delivery of legal outputs, and each of the two keeps the invariant.
-/
namespace Sys2Proof.Machine

theorem Outputs.legal_faulted (cap : Nat) (f : FaultCode) : Outputs.Legal cap (Outputs.faulted f) := by
  constructor <;> simp [Outputs.faulted]

/-- Where no output has a value outside its range, and the pair is delivered whole, completed outputs are legal. -/
theorem Completes.outputs_legal {i : Instr} {s t : State} (h : Completes i s t) : Outputs.Legal s.cap t.out := by
  cases h with
  | @csumEncode c _ =>
    constructor <;> simp
    · exact mask_le_or_mask c
    · exact mask_le_or_mask (c >>> 1)
  | pktLength first =>
    obtain ⟨hlt, _⟩ := firstZero_eq_some_iff.mp first
    constructor <;> simp [hlt]
  | _ => constructor <;> simp

/-- The part of the invariant that speaks of the memories is kept by a write that fits. -/
theorem State.Inv.writeBytes {s : State} (h : State.Inv s) {m : MemId} {a : Nat} {bs : List Byte}
    (hfits : bs = [] ∨ a + bs.length ≤ s.size m) : State.Inv (s.writeBytes m a bs) := by
  cases m with
  | pb => exact ⟨h.capacity, Memory.store_wf h.pb_wf a bs, Memory.store_within h.pb_within hfits, h.sb_wf,
      h.sb_within, h.outputs⟩
  | sb => exact ⟨h.capacity, h.pb_wf, h.pb_within, Memory.store_wf h.sb_wf a bs,
      Memory.store_within h.sb_within hfits, h.outputs⟩

theorem State.Inv.deliver {s : State} (h : State.Inv s) {o : Outputs} (ho : Outputs.Legal s.cap o) :
    State.Inv (s.deliver o) :=
  ⟨h.capacity, h.pb_wf, h.pb_within, h.sb_wf, h.sb_within, ho⟩

theorem State.Inv.raise {s : State} (h : State.Inv s) (f : FaultCode) : State.Inv (s.raise f) :=
  h.deliver (Outputs.legal_faulted s.cap f)

theorem State.Inv.countMismatch {s : State} (h : State.Inv s) : State.Inv s.countMismatch :=
  ⟨h.capacity, h.pb_wf, h.pb_within, h.sb_wf, h.sb_within, h.outputs⟩

theorem State.Inv.inbox {s : State} (h : State.Inv s) (rest : List Action) :
    State.Inv { s with inbox := rest } :=
  ⟨h.capacity, h.pb_wf, h.pb_within, h.sb_wf, h.sb_within, h.outputs⟩

/-- Every completed operation is a write that fits, if any, and legal outputs. -/
theorem Completes.inv {i : Instr} {s t : State} (hinv : State.Inv s) (h : Completes i s t) : State.Inv t := by
  have hlegal := h.outputs_legal
  cases h with
  | @packet _ _ _ p packet fits =>
    have hfits : 0 + p.length ≤ s.size .pb := by
      rw [Nat.zero_add, packetOf_length packet]
      exact fits
    exact (hinv.writeBytes (.inr hfits)).deliver hlegal
  | sectorMatch _ _ =>
    exact (hinv.writeBytes (m := .sb) (a := 0) (.inr (by simp))).deliver hlegal
  | sectorMismatch _ _ =>
    exact (hinv.writeBytes (m := .sb) (a := 0) (.inr (by simp))).countMismatch.deliver hlegal
  | _ => exact hinv.deliver hlegal

theorem exec_keeps_inv {i : Instr} {s t : State} (hinv : State.Inv s) (hexec : exec i s = .next t) :
    State.Inv t := by
  obtain hcompletes | ⟨f, _, rfl⟩ := completes_or_raises hexec
  · exact hcompletes.inv hinv
  · exact hinv.raise f

/-- Settles O9, by the four things a step can do: wait, take a write, run an operation, reject a request. -/
theorem stepKeepsTheInvariant : Obligations.StepKeepsTheInvariant := by
  intro s t hinv hstep
  obtain ⟨_, rfl⟩ | ⟨m, a, bs, rest, _, hfits, rfl⟩ | ⟨_, rest, _, _, _, hexec⟩ | ⟨_, rest, _, _, _, rfl⟩ :=
    step_cases hstep
  · exact hinv
  · exact (hinv.inbox rest).writeBytes (by rwa [State.size_inbox])
  · exact exec_keeps_inv (hinv.inbox rest) hexec
  · exact (hinv.inbox rest).raise .illegalOp

end Sys2Proof.Machine

/-!
The packets that the encode paths write, byte for byte (R56 to R58, R76 to R81), and that a second build changes
nothing (R82).
-/
namespace Sys2Proof.Machine

/-- What an encode path does where its packet fits: the packet from PB[0], and nothing else but FAULT. -/
theorem exec_writes_packet {i : Instr} {s : State} {need : Nat} {p : List Byte}
    (hpacket : packetOf i s = some (need, p)) (hfits : need ≤ s.cap) :
    ∃ t, exec i s = .next t ∧ (∀ k b, p[k]? = some b → t.byteAt .pb k = b) ∧
      (∀ k, need ≤ k → t.byteAt .pb k = s.byteAt .pb k) ∧
      t = { s with pb := t.pb, out := { Outputs.absent with fault := some .noFault } } :=
  ⟨s.emitPacket p, exec_of_completes (.packet hpacket hfits),
    fun _ _ hb => State.byteAt_emitPacket_of_getElem? hb,
    fun _ hk => State.byteAt_emitPacket_above s (packetOf_length hpacket ▸ hk), rfl⟩

/-- The status reply's checksum is src ^ 0xFD (R77). -/
theorem statusPacket_eq (src : Byte) : statusPacket src =
    header src typeStatus statFixed 4 0 ++ statusWire ++ trailer (src ^^^ 0xFD#8) := by
  have hchecksum : xorBytes (generalStatus :: blockCount) ^^^ headerXor (header src typeStatus statFixed 4 0) =
      src ^^^ 0xFD#8 := by
    rw [headerXor_header, BitVec.xor_comm]
    simp only [BitVec.xor_assoc]
    rfl
  rw [← hchecksum]
  rfl

/-- The checksum of the status+device-info reply is src ^ 0xFE (R79). -/
theorem statusDibPacket_eq (src : Byte) : statusDibPacket src =
    header src typeStatus statFixed 4 3 ++ dibTemplate ++ trailer (src ^^^ 0xFE#8) := by
  have hchecksum : xorBytes (generalStatus :: blockCount.take 2) ^^^
      headerXor (header src typeStatus statFixed 4 3) = src ^^^ 0xFE#8 := by
    rw [headerXor_header, BitVec.xor_comm]
    simp only [BitVec.xor_assoc]
    rfl
  rw [← hchecksum]
  rfl

/-- The checksum of an acknowledge is src ^ stat ^ type (R80, R81). -/
theorem ackPacket_eq (type src stat : Byte) : ackPacket type src stat =
    header src type stat 0 0 ++ trailer (src ^^^ stat ^^^ type) := by
  have hchecksum : headerXor (header src type stat 0 0) = src ^^^ stat ^^^ type := by
    rw [headerXor_header, BitVec.xor_self, BitVec.xor_zero, BitVec.xor_assoc, BitVec.xor_comm type,
      BitVec.xor_assoc]
  rw [← hchecksum]
  rfl

/-- Settles O29, by the bytes of the status reply. -/
theorem buildStatusWritesTheStatusReply : Obligations.BuildStatusWritesTheStatusReply := by
  intro src s hcap
  have hwrites := exec_writes_packet (i := .buildStatus src) rfl hcap
  rw [statusPacket_eq] at hwrites
  exact hwrites

/-- Settles O30, by the bytes of the status+device-info reply. -/
theorem buildStatusDibWritesTheDeviceInfoReply : Obligations.BuildStatusDibWritesTheDeviceInfoReply := by
  intro src s hcap
  have hwrites := exec_writes_packet (i := .buildStatusDib src) rfl hcap
  rw [statusDibPacket_eq] at hwrites
  exact hwrites

/-- Settles O31, by the bytes of an acknowledge of type 0x81. -/
theorem buildWriteAckWritesTheWriteAck : Obligations.BuildWriteAckWritesTheWriteAck := by
  intro src stat s hcap
  have hwrites := exec_writes_packet (i := .buildWriteAck src stat) rfl hcap
  rw [ackPacket_eq] at hwrites
  exact hwrites

/-- Settles O32, by the bytes of an acknowledge of type 0x80. -/
theorem buildInitAckWritesTheInitAck : Obligations.BuildInitAckWritesTheInitAck := by
  intro src stat s hcap
  have hwrites := exec_writes_packet (i := .buildInitAck src stat) rfl hcap
  rw [ackPacket_eq] at hwrites
  exact hwrites

/-- A packet depends on the operands and on SB alone (R75, R85). -/
theorem packetOf_congr (i : Instr) {s t : State} (h : s.byteAt .sb = t.byteAt .sb) :
    packetOf i s = packetOf i t := by
  cases i <;> simp only [packetOf, h]

theorem State.emitPacket_emitPacket (s : State) (p : List Byte) :
    (s.emitPacket p).emitPacket p = s.emitPacket p := by
  simp only [State.emitPacket, State.writeBytes, State.deliver, Memory.store_store]

/-- The encode paths, with their operands (R101). -/
def EncodesWith (i : Instr) (src stat : Byte) : Prop :=
  i = .buildStatus src ∨ i = .buildStatusDib src ∨ i = .buildWriteAck src stat ∨ i = .buildInitAck src stat ∨
    i = .sectorEncode src

theorem EncodesWith.exists_packet {i : Instr} {src stat : Byte} (h : EncodesWith i src stat) (s : State) :
    ∃ need p, packetOf i s = some (need, p) := by
  obtain ⟨need, p, hpacket, _⟩ := packetOf_carries_operands s h
  exact ⟨need, p, hpacket⟩

/-- An encode path either lacked capacity or emitted its packet (R101). -/
theorem EncodesWith.exec_cases {i : Instr} {src stat : Byte} (h : EncodesWith i src stat) {s t : State}
    (hexec : exec i s = .next t) : ∃ need p, packetOf i s = some (need, p) ∧
      (s.cap < need ∧ t = s.raise .capacityFault ∨ need ≤ s.cap ∧ t = s.emitPacket p) := by
  obtain ⟨need, p, hpacket⟩ := h.exists_packet s
  rw [exec_of_packetOf hpacket] at hexec
  injection hexec with ht
  subst ht
  exact ⟨need, p, hpacket, s.ifCapacity_cases need (s.emitPacket p)⟩

/-- Settles O33: the second build emits the same packet, or lacks the same capacity. -/
theorem buildingTwiceChangesNothing : Obligations.BuildingTwiceChangesNothing := by
  intro i s t src stat hencode hexec
  obtain ⟨need, p, hpacket, ⟨hsmall, rfl⟩ | ⟨hfits, rfl⟩⟩ := EncodesWith.exec_cases hencode hexec
  · have hagain : packetOf i (s.raise .capacityFault) = some (need, p) :=
      (packetOf_congr i (funext (State.byteAt_raise s _ .sb))).trans hpacket
    exact exec_of_faults (.packet hagain hsmall)
  · have hagain : packetOf i (s.emitPacket p) = some (need, p) :=
      (packetOf_congr i (funext (State.byteAt_emitPacket_sb s p))).trans hpacket
    have hsecond := exec_of_completes (.packet hagain hfits)
    rwa [State.emitPacket_emitPacket] at hsecond

end Sys2Proof.Machine

/-!
Bit 7 and the terminator of a built packet (R39, R50, R87, R113). The one idea: every packet is the preamble, a body
and the terminator, and every byte of the body is an operand, a constant or a packed byte, so with valid operands the
terminator is the first zero byte.
-/
namespace Sys2Proof.Machine

/-- A packet: header, payload and trailer (R46, R54). -/
def wirePacket (src type stat : Byte) (odd grp : Nat) (payload : List Byte) (c : Byte) : List Byte :=
  header src type stat odd grp ++ payload ++ trailer c

/-- The bytes of a packet between its preamble and its terminator. -/
def packetBody (src type stat : Byte) (odd grp : Nat) (payload : List Byte) (c : Byte) : List Byte :=
  [startMarker, destHost, src, type, auxCode, stat, countField odd, countField grp] ++ payload ++
    [(csumPair c).1, (csumPair c).2, endMarker]

theorem statusPacket_eq_wirePacket (src : Byte) :
    ∃ c, statusPacket src = wirePacket src typeStatus statFixed 4 0 statusWire c := ⟨_, rfl⟩

theorem statusDibPacket_eq_wirePacket (src : Byte) :
    ∃ c, statusDibPacket src = wirePacket src typeStatus statFixed 4 3 dibTemplate c := ⟨_, rfl⟩

theorem ackPacket_eq_wirePacket (type src stat : Byte) :
    ∃ c, ackPacket type src stat = wirePacket src type stat 0 0 [] c := ⟨_, rfl⟩

theorem sectorPacket_eq_wirePacket (src : Byte) (read : Nat → Byte) : ∃ c, sectorPacket src read =
    wirePacket src typeData statFixed 1 73 (packPayload [read 0] (sectorGroups read)) c := ⟨_, rfl⟩

section
variable {src type stat c : Byte} {odd grp : Nat} {payload : List Byte}

theorem wirePacket_eq : wirePacket src type stat odd grp payload c =
    preamble ++ (packetBody src type stat odd grp payload c ++ [terminator]) := by
  simp [wirePacket, packetBody, header, trailer]

theorem packetBody_length : (packetBody src type stat odd grp payload c).length = payload.length + 11 := by
  simp [packetBody]

theorem wirePacket_length : (wirePacket src type stat odd grp payload c).length = payload.length + 18 := by
  simp [wirePacket_eq, packetBody_length, preamble]

theorem wirePacket_getElem?_terminator :
    (wirePacket src type stat odd grp payload c)[payload.length + 17]? = some terminator := by
  rw [wirePacket_eq, List.getElem?_append_right (by simp [preamble]), List.getElem?_append_right
    (by simp [preamble, packetBody_length])]
  simp [preamble, packetBody_length]

theorem wirePacket_getElem?_header {k : Nat} (hk : k < 14) :
    (wirePacket src type stat odd grp payload c)[k]? = (header src type stat odd grp)[k]? := by
  rw [wirePacket, List.append_assoc, List.getElem?_append_left (by rwa [header_length])]

/-- From offset 6 to the terminator a packet holds the bytes of its body. -/
theorem mem_packetBody_of_getElem? {k : Nat} {b : Byte} (hlow : 6 ≤ k) (hhigh : k < payload.length + 17)
    (hb : (wirePacket src type stat odd grp payload c)[k]? = some b) :
    b ∈ packetBody src type stat odd grp payload c := by
  rw [wirePacket_eq, List.getElem?_append_right (by simpa [preamble] using hlow), List.getElem?_append_left] at hb
  · exact List.mem_of_getElem? hb
  · simp only [packetBody_length, preamble, List.length_cons, List.length_nil]
    omega

end

theorem countField_getLsbD_seven (n : Nat) : (countField n).getLsbD 7 = true := by
  simp [countField]

theorem csumPair_getLsbD_seven (c : Byte) :
    (csumPair c).1.getLsbD 7 = true ∧ (csumPair c).2.getLsbD 7 = true :=
  ⟨(csumPair_fst_bits c (by decide : 3 < 4)).2, (csumPair_snd_bits c (by decide : 3 < 4)).2⟩

theorem packSection_clean {bs : List Byte} {b : Byte} (hb : b ∈ packSection bs) : b.getLsbD 7 = true := by
  cases bs with
  | nil => simp [packSection] at hb
  | cons a bs =>
    obtain rfl | hb := List.mem_cons.mp hb
    · exact carrier_getLsbD_seven _
    · obtain ⟨d, _, rfl⟩ := List.mem_map.mp hb
      simp

theorem packPayload_clean {odd : List Byte} {groups : List (List Byte)} {b : Byte}
    (hb : b ∈ packPayload odd groups) : b.getLsbD 7 = true := by
  obtain hodd | hgroups := List.mem_append.mp hb
  · exact packSection_clean hodd
  · obtain ⟨group, _, hgroup⟩ := List.mem_flatMap.mp hgroups
    exact packSection_clean hgroup

/-- With valid operands every byte of a body outside the payload has bit 7 set (R50). -/
theorem packetBody_forall {P : Byte → Prop} {src type stat c : Byte} {odd grp : Nat} {payload : List Byte}
    (hclean : ∀ b : Byte, b.getLsbD 7 = true → P b) (hsrc : src.getLsbD 7 = true) (htype : type.getLsbD 7 = true)
    (hstat : stat.getLsbD 7 = true) (hpayload : ∀ b ∈ payload, P b) :
    ∀ b ∈ packetBody src type stat odd grp payload c, P b := by
  obtain ⟨hfst, hsnd⟩ := csumPair_getLsbD_seven c
  simp only [packetBody, List.forall_mem_append, List.forall_mem_cons]
  exact ⟨⟨⟨hclean _ (by decide), hclean _ (by decide), hclean _ hsrc, hclean _ htype, hclean _ (by decide),
    hclean _ hstat, hclean _ (countField_getLsbD_seven odd), hclean _ (countField_getLsbD_seven grp),
    List.forall_mem_nil _⟩, hpayload⟩, hclean _ hfst, hclean _ hsnd, hclean _ (by decide), List.forall_mem_nil _⟩

theorem ne_zero_of_clean {b : Byte} (h : b.getLsbD 7 = true) : b ≠ 0x00#8 := by
  rintro rfl
  simp at h

theorem preamble_ne_zero : ∀ b ∈ preamble, b ≠ 0x00#8 := by
  decide

/-- With valid operands and a payload without zero bytes, no byte before the terminator is zero. -/
theorem wirePacket_ne_zero {src type stat c : Byte} {odd grp : Nat} {payload : List Byte}
    (hsrc : src.getLsbD 7 = true) (htype : type.getLsbD 7 = true) (hstat : stat.getLsbD 7 = true)
    (hpayload : ∀ b ∈ payload, b ≠ 0x00#8) {k : Nat} {b : Byte} (hk : k < payload.length + 17)
    (hb : (wirePacket src type stat odd grp payload c)[k]? = some b) : b ≠ 0x00#8 := by
  obtain hlow | hlow := Nat.lt_or_ge k 6
  · rw [wirePacket_eq, List.getElem?_append_left (by simpa [preamble] using hlow)] at hb
    exact preamble_ne_zero b (List.mem_of_getElem? hb)
  · exact packetBody_forall (P := (· ≠ 0x00#8)) (fun _ => ne_zero_of_clean) hsrc htype hstat hpayload b
      (mem_packetBody_of_getElem? hlow hk hb)

/-- From offset 6 to the end marker a packet with valid operands and a clean payload is 7-bit clean (R50). -/
theorem byteAt_emitPacket_clean {src type stat c : Byte} {odd grp : Nat} {payload : List Byte} (s : State)
    (hsrc : src.getLsbD 7 = true) (htype : type.getLsbD 7 = true) (hstat : stat.getLsbD 7 = true)
    (hpayload : ∀ b ∈ payload, b.getLsbD 7 = true) {k : Nat} (hlow : 6 ≤ k) (hhigh : k < payload.length + 17) :
    ((s.emitPacket (wirePacket src type stat odd grp payload c)).byteAt .pb k).getLsbD 7 = true := by
  have hlength : k < (wirePacket src type stat odd grp payload c).length := by
    rw [wirePacket_length]
    omega
  have hb := List.getElem?_eq_getElem hlength
  rw [State.byteAt_emitPacket_of_getElem? hb]
  exact packetBody_forall (fun _ => id) hsrc htype hstat hpayload _ (mem_packetBody_of_getElem? hlow hhigh hb)

/-! ### Measuring a built packet -/

/-- PKT_LENGTH finds the first zero byte of the packet just built. -/
theorem firstZero_emitPacket {s : State} {p : List Byte} {l : Nat} (hl : l < s.cap) (hzero : p[l]? = some 0x00#8)
    (hbefore : ∀ k b, k < l → p[k]? = some b → b ≠ 0x00#8) :
    firstZero (s.emitPacket p).cap ((s.emitPacket p).byteAt .pb) = some l := by
  refine firstZero_eq_some_iff.mpr ⟨hl, State.byteAt_emitPacket_of_getElem? hzero, fun k hk => ?_⟩
  have hlength : l < p.length := (List.getElem?_eq_some_iff.mp hzero).1
  have hb : p[k]? = some p[k] := List.getElem?_eq_getElem (hk.trans hlength)
  rw [State.byteAt_emitPacket_of_getElem? hb]
  exact hbefore k _ hk hb

/-- Every packet of an encode path has the shape of `wirePacket`, with no zero byte in its payload. -/
theorem EncodesWith.packet_shape {i : Instr} {s : State} {src stat : Byte} {need : Nat} {p : List Byte}
    (h : EncodesWith i src stat) (hpacket : packetOf i s = some (need, p)) :
    ∃ type stat' odd grp payload c, p = wirePacket src type stat' odd grp payload c ∧
      need = payload.length + 18 ∧ type.getLsbD 7 = true ∧ (stat' = stat ∨ stat' = statFixed) ∧
      ∀ b ∈ payload, b ≠ 0x00#8 := by
  rw [← packetOf_length hpacket]
  obtain rfl | rfl | rfl | rfl | rfl := h <;> cases hpacket
  case inl =>
    obtain ⟨c, hp⟩ := statusPacket_eq_wirePacket src
    exact ⟨_, _, _, _, _, c, hp, rfl, by decide, .inr rfl, by decide⟩
  case inr.inl =>
    obtain ⟨c, hp⟩ := statusDibPacket_eq_wirePacket src
    exact ⟨_, _, _, _, _, c, hp, rfl, by decide, .inr rfl, by decide⟩
  case inr.inr.inl =>
    obtain ⟨c, hp⟩ := ackPacket_eq_wirePacket typeStatus src stat
    exact ⟨_, _, _, _, _, c, hp, rfl, by decide, .inl rfl, List.forall_mem_nil _⟩
  case inr.inr.inr.inl =>
    obtain ⟨c, hp⟩ := ackPacket_eq_wirePacket typeInitAck src stat
    exact ⟨_, _, _, _, _, c, hp, rfl, by decide, .inl rfl, List.forall_mem_nil _⟩
  case inr.inr.inr.inr =>
    obtain ⟨c, hp⟩ := sectorPacket_eq_wirePacket src (s.byteAt .sb)
    exact ⟨_, _, _, _, _, c, hp, by rw [hp, wirePacket_length], by decide, .inr rfl,
      fun _ hb => ne_zero_of_clean (packPayload_clean hb)⟩

/-- With valid operands the first zero byte of a built packet is its terminator (R39). -/
theorem EncodesWith.firstZero_eq {i : Instr} {s : State} {src stat : Byte} {l : Nat} {p : List Byte}
    (h : EncodesWith i src stat) (hsrc : src.getLsbD 7 = true) (hstat : stat.getLsbD 7 = true)
    (hpacket : packetOf i s = some (l + 1, p)) (hl : l < s.cap) :
    firstZero (s.emitPacket p).cap ((s.emitPacket p).byteAt .pb) = some l := by
  obtain ⟨type, stat', odd, grp, payload, c, rfl, hlength, htype, hstat', hpayload⟩ := h.packet_shape hpacket
  have hvalid : stat'.getLsbD 7 = true := by
    obtain rfl | rfl := hstat'
    · exact hstat
    · decide
  obtain rfl : l = payload.length + 17 := by omega
  exact firstZero_emitPacket hl wirePacket_getElem?_terminator fun _ _ hk =>
    wirePacket_ne_zero hsrc htype hvalid hpayload hk

/-- The five packets and the offsets of their terminators (R39). -/
theorem encodesWith_of_terminator {i : Instr} {src stat : Byte} {l : Nat}
    (h : i = .buildStatus src ∧ l = 22 ∨ i = .buildStatusDib src ∧ l = 46 ∨ i = .buildWriteAck src stat ∧ l = 17 ∨
      i = .buildInitAck src stat ∧ l = 17 ∨ i = .sectorEncode src ∧ l = 603) (s : State) :
    EncodesWith i src stat ∧ ∃ p, packetOf i s = some (l + 1, p) := by
  unfold EncodesWith
  obtain ⟨rfl, rfl⟩ | ⟨rfl, rfl⟩ | ⟨rfl, rfl⟩ | ⟨rfl, rfl⟩ | ⟨rfl, rfl⟩ := h <;> exact ⟨by simp, _, rfl⟩

/-- Settles O34: the first zero byte of the emitted packet is its terminator. -/
theorem pktLengthFindsTheBuiltTerminator : Obligations.PktLengthFindsTheBuiltTerminator := by
  intro i s t src stat l hsrc hstat hkind hl hexec
  obtain ⟨hencode, p, hpacket⟩ := encodesWith_of_terminator hkind s
  obtain rfl := Completes.eq_of_exec (.packet hpacket hl) hexec
  exact exec_pktLength_some (hencode.firstZero_eq hsrc hstat hpacket hl)

/-! ### Zero operands -/

theorem mem_take_of_getElem? {α : Type} {l : List α} {n k : Nat} {a : α} (hk : k < n) (ha : l[k]? = some a) :
    a ∈ l.take n := List.mem_of_getElem? ((List.getElem?_take_of_lt hk).trans ha)

/-- No byte before the source id is zero, and none before the status but the source id can be (R46). -/
theorem header_ne_zero {src type stat b : Byte} {odd grp k : Nat} (htype : type.getLsbD 7 = true)
    (hk : k < 8 ∨ k < 11 ∧ src ≠ 0x00#8) (hb : (header src type stat odd grp)[k]? = some b) : b ≠ 0x00#8 := by
  have hfixed : ∀ b ∈ preamble ++ [startMarker, destHost], b ≠ 0x00#8 := by decide
  obtain hk | ⟨hk, hsrc⟩ := hk
  · exact hfixed b (mem_take_of_getElem? hk hb)
  · have hmem : b ∈ (preamble ++ [startMarker, destHost]) ++ [src, type, auxCode] := mem_take_of_getElem? hk hb
    obtain hb | hb := List.mem_append.mp hmem
    · exact hfixed b hb
    · have hall : ∀ b ∈ [src, type, auxCode], b ≠ 0x00#8 := by
        simp only [List.forall_mem_cons]
        exact ⟨hsrc, ne_zero_of_clean htype, by decide, List.forall_mem_nil _⟩
      exact hall b hb

/-- Where a zero operand stands at offset `l` of the header, behind no other zero, PKT_LENGTH delivers `l` (R113). -/
theorem EncodesWith.measures_zero {i : Instr} {s t : State} {src stat : Byte} {need l : Nat} {p : List Byte}
    (h : EncodesWith i src stat) (hcap : 604 ≤ s.cap) (hexec : exec i s = .next t)
    (hpacket : packetOf i s = some (need, p)) (hzero : p[l]? = some 0x00#8)
    (hl : l ≤ 8 ∨ l ≤ 11 ∧ src ≠ 0x00#8) :
    t.out.fault = some .noFault ∧ exec .pktLength t = .next (t.deliver (Outputs.ofLen l)) := by
  have hneed := packetOf_need_le hpacket
  obtain rfl := Completes.eq_of_exec (.packet hpacket (by omega)) hexec
  obtain ⟨type, stat', odd, grp, payload, c, rfl, _, htype, _, _⟩ := h.packet_shape hpacket
  refine ⟨rfl, exec_pktLength_some (firstZero_emitPacket (by omega) hzero fun k b hk hb => ?_)⟩
  rw [wirePacket_getElem?_header (by omega)] at hb
  exact header_ne_zero htype (hl.imp hk.trans_le (And.imp_left hk.trans_le)) hb

/-- Settles O35, by the operands that the packet carries at offsets 8 and 11. -/
theorem zeroOperandShortensTheMeasuredPacket : Obligations.ZeroOperandShortensTheMeasuredPacket := by
  intro i s t src stat hcap hexec
  constructor
  · intro hencode
    obtain ⟨need, p, hpacket, hzero, _⟩ := packetOf_carries_operands s hencode
    exact EncodesWith.measures_zero hencode hcap hexec hpacket hzero (.inl (by decide))
  · intro hsrc hack
    have hencode : EncodesWith i src 0x00#8 := by
      unfold EncodesWith
      tauto
    obtain ⟨need, p, hpacket, _, hzero⟩ := packetOf_carries_operands s hencode
    exact hencode.measures_zero hcap hexec hpacket (hzero hack) (.inr ⟨by decide, hsrc⟩)

/-! ### Bit 7 -/

theorem byteAt_emitPacket_ack_clean {type src stat : Byte} (s : State) (hsrc : src.getLsbD 7 = true)
    (htype : type.getLsbD 7 = true) (hstat : stat.getLsbD 7 = true) {k : Nat} (hlow : 6 ≤ k) (hhigh : k < 17) :
    ((s.emitPacket (ackPacket type src stat)).byteAt .pb k).getLsbD 7 = true := by
  obtain ⟨c, hp⟩ := ackPacket_eq_wirePacket type src stat
  rw [hp]
  exact byteAt_emitPacket_clean s hsrc htype hstat (List.forall_mem_nil _) hlow hhigh

/-- Settles O36: the three packets have clean payloads. -/
theorem controlPacketsAreSevenBitClean : Obligations.ControlPacketsAreSevenBitClean := by
  intro i s t src stat l k hsrc hstat hkind hl hexec hlow hhigh
  obtain ⟨rfl, rfl⟩ | ⟨rfl, rfl⟩ | ⟨rfl, rfl⟩ := hkind
  case inl =>
    obtain rfl := Completes.eq_of_exec (.packet rfl hl) hexec
    obtain ⟨c, hp⟩ := statusPacket_eq_wirePacket src
    rw [hp]
    exact byteAt_emitPacket_clean s hsrc (by decide) (by decide) (by decide) hlow hhigh
  case inr.inl =>
    obtain rfl := Completes.eq_of_exec (.packet rfl hl) hexec
    exact byteAt_emitPacket_ack_clean s hsrc (by decide) hstat hlow hhigh
  case inr.inr =>
    obtain rfl := Completes.eq_of_exec (.packet rfl hl) hexec
    exact byteAt_emitPacket_ack_clean s hsrc (by decide) hstat hlow hhigh

/-- Settles O40: every payload byte of a sector packet is packed, so clean, and its terminator is its first zero. -/
theorem sectorPacketIsSevenBitClean : Obligations.SectorPacketIsSevenBitClean := by
  intro src s t hcap hsrc hexec
  rw [exec_sectorEncode src hcap] at hexec
  injection hexec with ht
  subst ht
  have hencode : EncodesWith (.sectorEncode src) src src := by simp [EncodesWith]
  obtain ⟨_, hterm, hbefore⟩ :=
    firstZero_eq_some_iff.mp (hencode.firstZero_eq (l := 603) (s := s) hsrc hsrc rfl hcap)
  refine ⟨fun k hlow hhigh => ?_, fun k hk => ⟨fun hzero => ?_, fun hlast => hlast ▸ hterm⟩⟩
  · obtain ⟨c, hp⟩ := sectorPacket_eq_wirePacket src (s.byteAt .sb)
    rw [hp]
    exact byteAt_emitPacket_clean s hsrc (by decide) (by decide) (fun _ => packPayload_clean) hlow
      (by rw [sectorPayload_length]; omega)
  · by_contra hne
    exact hbefore k (by omega) hzero

end Sys2Proof.Machine
